-- ==== Sys2Proof/Word.lean ====
section
/-! DEFINITION. The word types of the machine: bytes, 24-bit addresses, 32-bit entries, the 5-bit
index fields of an instruction, and the four operand widths (spec 10_state.md R20, R26, R34;
20_memory.md R67; 30_encoding.md R103). -/

namespace Sys2Proof

/-- A byte of RAM, of RSRAM or of an instruction, and one general register (R20, R31). -/
abbrev Byte := BitVec 8

/-- A RAM address, IPO, and a 24-bit operand (R26, R31). -/
abbrev Addr := BitVec 24

/-- A 32-bit value: an HMEM entry, a float register's bits (R24, R34). -/
abbrev Word32 := BitVec 32

/-- A general register index as an instruction carries it: the low 5 bits of a byte (R23, R103). -/
abbrev RegIx := BitVec 5

/-- A float register index as an instruction carries it (R24). -/
abbrev FRegIx := BitVec 5

/-- A condition index as an instruction carries it (R30). -/
abbrev CondIx := BitVec 5

/-- The four integer operand widths `r`, `rr`, `rrr`, `rrrr` (R67, R80). -/
inductive Width where
  | w8
  | w16
  | w24
  | w32
deriving DecidableEq, Repr

/-- How many bytes an operand of the width has (R67). -/
abbrev Width.bytes : Width → Nat
  | .w8 => 1
  | .w16 => 2
  | .w24 => 3
  | .w32 => 4

/-- How many bits an operand of the width has (R67). -/
abbrev Width.bits : Width → Nat
  | .w8 => 8
  | .w16 => 16
  | .w24 => 24
  | .w32 => 32

end Sys2Proof
end

