-- ==== Sys2Proof/Config.lean ====
section
/-! DEFINITION. What is fixed for one machine: the constants of 00_scope.md R5, the open parameters
of 00_scope.md R6 (the type `Params`; a machine's parameters are held in `State.params`, written by
no step), and the free values of 00_scope.md R10, which are opaque: nothing in Lean can evaluate
them. -/

namespace Sys2Proof

/-! ## Fixed constants (R5) -/

namespace Config

/-- `RAM_BYTES` (R5, R31): 16 MB and 3 bytes. -/
def ramBytes : Nat := 16777219

/-- `ADDR_WRAP` (R5, R64): the number of addressable bytes of RAM. -/
def addrWrap : Nat := 16777216

/-- `MAX24BIT` (R5). -/
def max24Bit : Nat := 0xFFFFFF

/-- `RSRAM_BYTES` (R5, R32). -/
def rsramBytes : Nat := 4194304

/-- `CSRAM_ENTRIES` (R5, R33). -/
def csramEntries : Nat := 1048576

/-- `CSRAM_ENTRY_BYTES` (R5): 3 address bytes and 1 padding byte. -/
def csramEntryBytes : Nat := 4

/-- `HMEM_ENTRIES` (R5, R34). -/
def hmemEntries : Nat := 65536

/-- `ERROR_HANDLER_ADDRESS` (R5, R34): the HMEM entry that holds the handler's address. -/
def errorHandlerAddress : Nat := hmemEntries - 1

/-- `ERROR_ID` (R5, R34): the HMEM entry that holds the id of the last error. -/
def errorId : Nat := hmemEntries - 2

/-- `N_REGS` (R5, R20). -/
def nRegs : Nat := 26

/-- `N_REG_BANKS` (R5, R21). -/
def nRegBanks : Nat := 256

/-- `N_FREGS` (R5, R24). -/
def nFregs : Nat := 16

/-- `N_FREG_BANKS` (R5, R25). -/
def nFregBanks : Nat := 256

/-- `V_WIDTH` (R5, R35). -/
def vWidth : Nat := 480

/-- `V_HEIGHT` (R5, R35). -/
def vHeight : Nat := 270

/-- `V_SIZE` (R5, R35): one byte per pixel. -/
def vSize : Nat := 129600

/-- `MAX_VIDEO_PAGES` (R5, R35). -/
def maxVideoPages : Nat := 8

/-- `PALETTE_BYTES` (R5, R35). -/
def paletteBytes : Nat := 768

/-- `PAGE_BYTES` (R5, R35). -/
def pageBytes : Nat := 130368

/-- `B_TRUE` (R5, R36); no rule uses it. -/
def bTrue : Byte := 0xFF

/-- `B_FALSE` (R5, R36); no rule uses it. -/
def bFalse : Byte := 0x00

/-- `SPR_DELAY_RESET_VALUE` (R6, R27, R446, D18): kept as a constant, applied by no rule.
Log entry 14. -/
def sprDelayResetValue : Nat := 100

/-! ## Free values (R10) -/

/-- The draws of R10: draw number `n` is `freeWord n`, arbitrary (log entry 8). -/
opaque freeWord : Nat → Word32

/-- `OFFSET_REG_SIGNED` (R6, R84, D11) of the machine that `State.reset` starts: either value
(log entry 12). -/
opaque offsetRegSigned : Bool

/-- `ERR_ID_DIV0` (R6, R405, D17) of the machine that `State.reset` starts: any value
(log entry 13). -/
opaque errIdDiv0 : Word32

end Config

/-! ## Operand shapes that the parameters speak of -/

/-- The ten memory addressing modes (R80). -/
inductive Mode where
  /-- `(nnn)` -/
  | abs
  /-- `(nnn, nnn)` -/
  | absImm
  /-- `(nnn, r)` -/
  | absR8
  /-- `(nnn, rr)` -/
  | absR16
  /-- `(nnn, rrr)` -/
  | absR24
  /-- `(rrr)` -/
  | ind
  /-- `(rrr, nnn)` -/
  | indImm
  /-- `(rrr, r)` -/
  | indR8
  /-- `(rrr, rr)` -/
  | indR16
  /-- `(rrr, rrr)` -/
  | indR24
deriving DecidableEq, Repr

/-- Whether a 32-bit operand of GETVAR or SETVAR is an immediate or a composite register
(R329, R330 leave the forms open; log entry 2). -/
inductive SrcKind where
  | imm
  | reg
deriving DecidableEq, Repr

/-- An instruction form whose effect the spec gives and whose sub-opcode it does not: what an
encoding "given from elsewhere" (R154 to R158, R178, R191, R272, R283 to R290, R329, R330) may
name. -/
inductive Form where
  /-- LD to a 16-, 24- or 32-bit register from an immediate of that width (R154 to R156). -/
  | ldImm (w : Width)
  /-- LD to a 16-, 24- or 32-bit register from a register of that width. -/
  | ldReg (w : Width)
  /-- LD to a 16-, 24- or 32-bit register from memory. -/
  | ldMem (w : Width) (m : Mode)
  /-- LD to memory from a register of the width (R157). -/
  | stReg (w : Width) (m : Mode)
  /-- LD to memory from a float register. -/
  | stFr (m : Mode)
  /-- LD to a float register from a float register (R158). -/
  | frFr
  /-- LD to a float register from memory. -/
  | frMem (m : Mode)
  /-- PUSH, PUSH16, PUSH24, PUSH32 of a general register (R287 to R290). -/
  | push (w : Width)
  /-- PUSH32 of a float register (R290). -/
  | pushFr
  /-- POP, POP16, POP24, POP32 of a general register (R283 to R286). -/
  | pop (w : Width)
  /-- POP32 of a float register (R286). -/
  | popFr
  /-- DIV of two registers of the width (R178). -/
  | div (w : Width)
  /-- SDIV of two registers of the width (R191). -/
  | sdiv (w : Width)
  /-- SETVAR of an index and a value (R329). -/
  | setvar (k v : SrcKind)
  /-- GETVAR of an index (R330). -/
  | getvar (k : SrcKind)
  /-- RETIF of a condition (R272). -/
  | retif
deriving DecidableEq, Repr

/-- The primary opcode a form belongs to (R93). -/
def Form.opcode : Form → Byte
  | .ldImm _ | .ldReg _ | .ldMem _ _ | .stReg _ _ | .stFr _ | .frFr | .frMem _ => 0x01
  | .push _ | .pushFr => 0x1C
  | .pop _ | .popFr => 0x1A
  | .div _ => 0x04
  | .sdiv _ => 0x5C
  | .setvar _ _ => 0xBE
  | .getvar _ => 0xBF
  | .retif => 0xFE

/-- Whether the first operand, as R116 orders them, is an index of 5 bits, of a register or of a condition: what patterns 2
and 3 put in bits 4:0 of byte 1 (R97, R98). -/
def Form.leadsIndex : Form → Bool
  | .setvar .imm .imm => false
  | _ => true

/-! ## What follows the primary opcode (R95 to R99) -/

/-- What is supplied of the byte after a primary opcode: `SUBOP_PRESENT` (R95), and the pattern (R96
to R98) where it is supplied too. -/
inductive Subop where
  /-- `SUBOP_PRESENT` is false: the operands follow the primary opcode. -/
  | absent
  /-- `SUBOP_PRESENT` is true; the pattern is not supplied. -/
  | present
  /-- Pattern 1: byte 1 is a constant, and the operands follow it (R96). -/
  | constant
  /-- Pattern 2 or 3: bits 7:5 of byte 1 are a variant and bits 4:0 the first operand, an index; the
  other operands follow (R97, R98). -/
  | packed
deriving DecidableEq, Repr

/-- The value `sub` that is listed for a form stands in byte 1 of an instruction: the whole byte in
pattern 1, its bits 7:5 in patterns 2 and 3; with no sub-opcode byte there is none to compare. -/
def Subop.hits (k : Subop) (sub b1 : Byte) : Bool :=
  match k with
  | .absent => true
  | .present => false
  | .constant => sub == b1
  | .packed => sub.extractLsb' 5 3 == b1.extractLsb' 5 3

/-- The form can have its operands where the pattern puts them. -/
def Subop.fits (k : Subop) (f : Form) : Bool :=
  match k with
  | .packed => f.leadsIndex
  | _ => true

/-- What is supplied of the byte after one primary opcode. -/
structure SubopRow where
  op : Byte
  subop : Subop
deriving DecidableEq, Repr

/-- One width suffix given from elsewhere: the byte `b1` after the primary opcode `op`, which several
mnemonics share, stands for the mnemonic of width `w` (N29). Log entry 27. -/
structure SuffixRow where
  op : Byte
  b1 : Byte
  w : Width
deriving DecidableEq, Repr

/-- One encoding given from elsewhere: the value `sub` in the byte after the form's primary opcode,
read as the opcode's pattern says (`Subop.hits`), stands for the form. -/
structure FormRow where
  sub : Byte
  form : Form
deriving DecidableEq, Repr

/-- The open parameters (R6), with `none` for "not supplied". -/
structure Params where
  /-- `RUN_ADDRESS`: IPO at launch (R41, R440). Log entry 11. -/
  runAddress : Addr
  /-- `SUBOP_PRESENT(op)` and the pattern, of the opcodes that R99 does not name. Log entry 37. -/
  subops : List SubopRow
  /-- `SUBOP_rrr_IrrrI` (R101, R155). -/
  subopRrrInd : Option Byte
  /-- `SUBOP_InnnI_r` (R101, R157). -/
  subopAbsR : Option Byte
  /-- `VARIANT_CALL_NNN` (R261), and so on. -/
  callNnn : Option (BitVec 3)
  callCond : Option (BitVec 3)
  callrNnn : Option (BitVec 3)
  callrCond : Option (BitVec 3)
  jpNnn : Option (BitVec 3)
  jpCond : Option (BitVec 3)
  jrNnn : Option (BitVec 3)
  jrCond : Option (BitVec 3)
  /-- `OFFSET_REG_SIGNED` (R84). -/
  offsetSigned : Option Bool
  /-- `ERR_ID_DIV0` (R405). -/
  errIdDiv0 : Word32
  /-- Whether the model opts in to the inferred forms of ADD and SUB (R170, R174, D5).
  Log entry 4. -/
  optIn : Bool
  /-- Whether an instruction whose effect the spec gives but for an open value or side runs with
  that value free (R153, R178, R191, R329, R330) instead of being refused. Log entries 5 to 7. -/
  runOpen : Bool
  /-- The encodings given from elsewhere. Log entries 2 and 3. -/
  elsewhere : List FormRow
  /-- The width suffixes of shared primary opcodes. Log entry 27. -/
  suffixes : List SuffixRow
deriving DecidableEq, Repr

/-- What is known of the byte after a primary opcode: the pattern of the ten opcodes that R99 names,
and what is supplied for the 68 others, of which "a model must not assume which" pattern they have. -/
def Params.subop? (p : Params) (op : Byte) : Option Subop :=
  match op.toNat with
  | 0x01 | 0x02 | 0x03 => some .constant
  | 0x11 | 0x12 | 0x15 | 0x16 | 0x17 | 0x18 | 0x30 => some .packed
  | _ => (p.subops.find? fun r => r.op == op).map (·.subop)

/-- `SUBOP_PRESENT(op)` (R6, R95): true for the opcodes that R99 names, open for the others. -/
def Params.subopPresent? (p : Params) (op : Byte) : Option Bool :=
  (p.subop? op).map (· != .absent)

/-- Where the first operand stands: in byte 2 under pattern 1; in byte 1 under patterns 2 and 3, whose
bits 4:0 hold it, and where there is no sub-opcode byte. -/
def Params.lead (p : Params) (op : Byte) : Nat :=
  match p.subop? op with
  | some .absent | some .packed => 1
  | _ => 2

/-- The form that the parameters list for a primary opcode and the byte after it. -/
def Params.form? (p : Params) (op b1 : Byte) : Option Form :=
  match p.subop? op with
  | none => none
  | some k =>
    (p.elsewhere.find? fun r => r.form.opcode == op && k.fits r.form && k.hits r.sub b1).map (·.form)

/-- The value that the parameters list for a form. -/
def Params.sub? (p : Params) (f : Form) : Option Byte :=
  (p.elsewhere.find? fun r => r.form == f).map (·.sub)

/-- The width suffix that the parameters list for a shared primary opcode and the byte after it. -/
def Params.suffix? (p : Params) (op b1 : Byte) : Option Width :=
  (p.suffixes.find? fun r => r.op == op && r.b1 == b1).map (·.w)

end Sys2Proof
end

