-- ==== Sys2Proof/Syntax.lean ====
section
/-! DEFINITION. The instructions, one constructor of `Instr` for each row of spec/opcode_table.json
(30_encoding.md R93, R117), and their operand forms (20_memory.md R80). Register, float register
and condition indices are the 5-bit fields of the encoding, so that an index that names nothing
(10_state.md R23, R24, R30) can be written down; `WellFormed.lean` says which name something. -/

namespace Sys2Proof

/-- A memory operand (R80): `a` is a 24-bit address, `o` a 24-bit offset, `b` the first register of
a 24-bit address register, `q` the first register of an offset register. -/
inductive MemOp where
  /-- `(nnn)` -/
  | abs (a : Addr)
  /-- `(nnn, nnn)` -/
  | absImm (a o : Addr)
  /-- `(nnn, r)` -/
  | absR8 (a : Addr) (q : RegIx)
  /-- `(nnn, rr)` -/
  | absR16 (a : Addr) (q : RegIx)
  /-- `(nnn, rrr)` -/
  | absR24 (a : Addr) (q : RegIx)
  /-- `(rrr)` -/
  | ind (b : RegIx)
  /-- `(rrr, nnn)` -/
  | indImm (b : RegIx) (o : Addr)
  /-- `(rrr, r)` -/
  | indR8 (b q : RegIx)
  /-- `(rrr, rr)` -/
  | indR16 (b q : RegIx)
  /-- `(rrr, rrr)` -/
  | indR24 (b q : RegIx)
deriving DecidableEq, Repr

/-- The addressing mode of a memory operand. -/
def MemOp.mode : MemOp → Mode
  | .abs _ => .abs
  | .absImm _ _ => .absImm
  | .absR8 _ _ => .absR8
  | .absR16 _ _ => .absR16
  | .absR24 _ _ => .absR24
  | .ind _ => .ind
  | .indImm _ _ => .indImm
  | .indR8 _ _ => .indR8
  | .indR16 _ _ => .indR16
  | .indR24 _ _ => .indR24

/-- The registers a memory operand names. -/
def MemOp.regs : MemOp → List RegIx
  | .abs _ | .absImm _ _ => []
  | .absR8 _ q | .absR16 _ q | .absR24 _ q => [q]
  | .ind b | .indImm b _ => [b]
  | .indR8 b q | .indR16 b q | .indR24 b q => [b, q]

/-- LD to a register of width `w` (R140, R154 to R156): destination `d`. -/
inductive LdForm (w : Width) where
  | imm (d : RegIx) (v : BitVec w.bits)
  | reg (d s : RegIx)
  | mem (d : RegIx) (m : MemOp)
deriving DecidableEq, Repr

/-- LD to memory (R157): from a general register of a width, or from a float register. -/
inductive StForm where
  | reg (w : Width) (m : MemOp) (s : RegIx)
  | fr (m : MemOp) (f : FRegIx)
deriving DecidableEq, Repr

/-- LD to a float register (R158). -/
inductive FrForm where
  | fr (d s : FRegIx)
  | mem (d : FRegIx) (m : MemOp)
deriving DecidableEq, Repr

/-- The `_r_*` operand forms of ADD and SUB: sub-opcodes 0 to 11 (R100, R170, R174), and `fr`, of
ADD's sub-opcode 12, to which R107 gives a length and R170 no effect. -/
inductive ArithForm where
  | imm (d : RegIx) (n : Byte)
  | reg (d s : RegIx)
  | mem (d : RegIx) (m : MemOp)
  | fr (d : RegIx) (f : FRegIx)
deriving DecidableEq, Repr

/-- The operands of DIV and SDIV (R178, R191, R405): destination and dividend `d`, divisor `s`. -/
structure DivForm where
  w : Width
  d : RegIx
  s : RegIx
deriving DecidableEq, Repr

/-- A 32-bit operand of PUSH32 and POP32: a composite register, or a float register. R286 and R290 say
that a float register can be pushed and popped as 4 bytes, "under which mnemonic and sub-opcode is
not in the source": that the mnemonics are PUSH32 and POP32 is the model's choice. DESIGN CHOICE, log
entry 38. -/
inductive Reg32 where
  | gen (i : RegIx)
  | fr (f : FRegIx)
deriving DecidableEq, Repr

/-- A source operand of SETVAR and GETVAR (R329, R330): a 4-byte immediate or a 32-bit composite
register. That the HMEM index has these 32-bit forms, where R60 speaks of a 16-bit entry index, is the
model's choice. DESIGN CHOICE, log entry 39. -/
inductive Src32 where
  | imm (v : Word32)
  | reg (i : RegIx)
deriving DecidableEq, Repr

/-- Which kind of source operand it is. -/
def Src32.kind : Src32 → SrcKind
  | .imm _ => .imm
  | .reg _ => .reg

/-- The registers a source operand names. -/
def Src32.regs : Src32 → List RegIx
  | .imm _ => []
  | .reg i => [i]

/-- SETVAR (R329): HMEM index `k`, value `v`. -/
structure SetForm where
  k : Src32
  v : Src32
deriving DecidableEq, Repr

/-- GETVAR (R330): destination composite `d`, HMEM index `k`. -/
structure GetForm where
  d : RegIx
  k : Src32
deriving DecidableEq, Repr

/-- The operands of an instruction whose sub-opcodes the spec does not list: `form x` when the
machine's parameters list the sub-opcode byte, `unlisted sub` when they do not. -/
inductive Given (α : Type) where
  | form (x : α)
  | unlisted (sub : Byte)
deriving DecidableEq, Repr

/-- The instructions. A row for which the spec gives no operands (30_encoding.md R109, class 2)
carries the byte after the primary opcode, which R90 calls the sub-opcode: as one byte `b1`, or, for
the users of pattern 2 and 3, as its two fields `v` and `k` (R97, R98). -/
inductive Instr where
  /-- `NOP`, primary opcode 0x00 (R260). -/
  | nop
  /-- `LD r, n`, primary opcode 0x01 (R141). -/
  | ldRN (d : RegIx) (n : Byte)
  /-- `LD r, r`, primary opcode 0x01 (R142). -/
  | ldRR (d s : RegIx)
  /-- `LD r, (nnn)`, primary opcode 0x01 (R143). -/
  | ldRAbs (d : RegIx) (a : Addr)
  /-- `LD r, (nnn, nnn)`, primary opcode 0x01 (R144). -/
  | ldRAbsImm (d : RegIx) (a o : Addr)
  /-- `LD r, (nnn, r)`, primary opcode 0x01 (R145). -/
  | ldRAbsR8 (d : RegIx) (a : Addr) (q : RegIx)
  /-- `LD r, (nnn, rr)`, primary opcode 0x01 (R146). -/
  | ldRAbsR16 (d : RegIx) (a : Addr) (q : RegIx)
  /-- `LD r, (nnn, rrr)`, primary opcode 0x01 (R147). -/
  | ldRAbsR24 (d : RegIx) (a : Addr) (q : RegIx)
  /-- `LD r, (rrr)`, primary opcode 0x01 (R148). -/
  | ldRInd (d b : RegIx)
  /-- `LD r, (rrr, nnn)`, primary opcode 0x01 (R149). -/
  | ldRIndImm (d b : RegIx) (o : Addr)
  /-- `LD r, (rrr, r)`, primary opcode 0x01 (R150). -/
  | ldRIndR8 (d b q : RegIx)
  /-- `LD r, (rrr, rr)`, primary opcode 0x01 (R151). -/
  | ldRIndR16 (d b q : RegIx)
  /-- `LD r, (rrr, rrr)`, primary opcode 0x01 (R152). -/
  | ldRIndR24 (d b q : RegIx)
  /-- `LD r, fr`, primary opcode 0x01 (R153). -/
  | ldRFr (d : RegIx) (f : FRegIx)
  /-- `LD rr, *`, primary opcode 0x01 (R154). -/
  | ldRr (f : Given (LdForm .w16))
  /-- `LD rrr, *`, primary opcode 0x01 (R155). -/
  | ldRrr (f : Given (LdForm .w24))
  /-- `LD rrrr, *`, primary opcode 0x01 (R156). -/
  | ldRrrr (f : Given (LdForm .w32))
  /-- `LD (*), *`, primary opcode 0x01 (R157). -/
  | ldMem (f : Given StForm)
  /-- `LD fr, *`, primary opcode 0x01 (R158). -/
  | ldFr (f : Given FrForm)
  /-- `LD (sub-opcode 244-255)`, primary opcode 0x01 (R158). -/
  | ldUndef (sub : Byte)
  /-- `LD rrr, (rrr)`, primary opcode 0x01 (R155). -/
  | ldRrrInd (d b : RegIx)
  /-- `LD (nnn), r`, primary opcode 0x01 (R157). -/
  | ldAbsR (s : RegIx) (a : Addr)
  /-- `ADD r, n`, primary opcode 0x02 (R170). -/
  | addRN (d : RegIx) (n : Byte)
  /-- `ADD (sub-opcode 1-243)`, primary opcode 0x02 (R170). -/
  | addR (f : Given ArithForm)
  /-- `ADD (sub-opcode 244-255)`, primary opcode 0x02 (R170). -/
  | addUndef (sub : Byte)
  /-- `ADD16`, primary opcode 0x02 (R171). -/
  | add16 (b1 : Byte)
  /-- `ADD24`, primary opcode 0x02 (R172). -/
  | add24 (b1 : Byte)
  /-- `ADD32`, primary opcode 0x02 (R173). -/
  | add32 (b1 : Byte)
  /-- `SUB`, primary opcode 0x03 (R174). -/
  | sub (f : Given ArithForm)
  /-- `SUB16`, primary opcode 0x03 (R175). -/
  | sub16 (b1 : Byte)
  /-- `SUB24`, primary opcode 0x03 (R176). -/
  | sub24 (b1 : Byte)
  /-- `SUB32`, primary opcode 0x03 (R177). -/
  | sub32 (b1 : Byte)
  /-- `SUB (sub-opcode 244-255)`, primary opcode 0x03 (R109). -/
  | subUndef (sub : Byte)
  /-- `DIV`, primary opcode 0x04 (R178). -/
  | div (f : Given DivForm)
  /-- `MUL`, primary opcode 0x05 (R179). -/
  | mul (b1 : Byte)
  /-- `SL`, primary opcode 0x06 (R201). -/
  | sl (b1 : Byte)
  /-- `SR`, primary opcode 0x07 (R202). -/
  | sr (b1 : Byte)
  /-- `RL`, primary opcode 0x08 (R203). -/
  | rl (b1 : Byte)
  /-- `RR`, primary opcode 0x09 (R204). -/
  | rr (b1 : Byte)
  /-- `SET`, primary opcode 0x0A (R205). -/
  | set (b1 : Byte)
  /-- `RES`, primary opcode 0x0B (R206). -/
  | res (b1 : Byte)
  /-- `BIT`, primary opcode 0x0C (R207). -/
  | bit (b1 : Byte)
  /-- `AND`, primary opcode 0x0D (R208). -/
  | and (b1 : Byte)
  /-- `AND16`, primary opcode 0x0D (R209). -/
  | and16 (b1 : Byte)
  /-- `AND24`, primary opcode 0x0D (R210). -/
  | and24 (b1 : Byte)
  /-- `AND32`, primary opcode 0x0D (R211). -/
  | and32 (b1 : Byte)
  /-- `OR`, primary opcode 0x0E (R212). -/
  | or (b1 : Byte)
  /-- `OR16`, primary opcode 0x0E (R213). -/
  | or16 (b1 : Byte)
  /-- `OR24`, primary opcode 0x0E (R214). -/
  | or24 (b1 : Byte)
  /-- `OR32`, primary opcode 0x0E (R215). -/
  | or32 (b1 : Byte)
  /-- `XOR`, primary opcode 0x0F (R216). -/
  | xor (b1 : Byte)
  /-- `XOR16`, primary opcode 0x0F (R217). -/
  | xor16 (b1 : Byte)
  /-- `XOR24`, primary opcode 0x0F (R218). -/
  | xor24 (b1 : Byte)
  /-- `XOR32`, primary opcode 0x0F (R219). -/
  | xor32 (b1 : Byte)
  /-- `INV`, primary opcode 0x10 (R220). -/
  | inv (b1 : Byte)
  /-- `EX`, primary opcode 0x11 (R251). -/
  | ex (v : BitVec 3) (k : BitVec 5)
  /-- `CP`, primary opcode 0x12 (R252). -/
  | cp (v : BitVec 3) (k : BitVec 5)
  /-- `INC`, primary opcode 0x13 (R180). -/
  | inc (b1 : Byte)
  /-- `INC16`, primary opcode 0x13 (R181). -/
  | inc16 (b1 : Byte)
  /-- `INC24`, primary opcode 0x13 (R182). -/
  | inc24 (b1 : Byte)
  /-- `INC32`, primary opcode 0x13 (R183). -/
  | inc32 (b1 : Byte)
  /-- `DEC`, primary opcode 0x14 (R184). -/
  | dec (b1 : Byte)
  /-- `DEC16`, primary opcode 0x14 (R185). -/
  | dec16 (b1 : Byte)
  /-- `DEC24`, primary opcode 0x14 (R186). -/
  | dec24 (b1 : Byte)
  /-- `DEC32`, primary opcode 0x14 (R187). -/
  | dec32 (b1 : Byte)
  /-- `CALL nnn`, primary opcode 0x15 (R262). -/
  | callNnn (a : Addr)
  /-- `CALL cond, nnn`, primary opcode 0x15 (R262). -/
  | callCond (k : CondIx) (a : Addr)
  /-- `CALL (other variants)`, primary opcode 0x15 (R261). -/
  | callOther (v : BitVec 3) (k : BitVec 5)
  /-- `CALLR nnn`, primary opcode 0x16 (R263). -/
  | callrNnn (o : Addr)
  /-- `CALLR cond, nnn`, primary opcode 0x16 (R263). -/
  | callrCond (k : CondIx) (o : Addr)
  /-- `CALLR (other variants)`, primary opcode 0x16 (R261). -/
  | callrOther (v : BitVec 3) (k : BitVec 5)
  /-- `JP nnn`, primary opcode 0x17 (R264). -/
  | jpNnn (a : Addr)
  /-- `JP cond, nnn`, primary opcode 0x17 (R264). -/
  | jpCond (k : CondIx) (a : Addr)
  /-- `JP (other variants)`, primary opcode 0x17 (R261). -/
  | jpOther (v : BitVec 3) (k : BitVec 5)
  /-- `JR nnn`, primary opcode 0x18 (R265). -/
  | jrNnn (o : Addr)
  /-- `JR cond, nnn`, primary opcode 0x18 (R265). -/
  | jrCond (k : CondIx) (o : Addr)
  /-- `JR (other variants)`, primary opcode 0x18 (R261). -/
  | jrOther (v : BitVec 3) (k : BitVec 5)
  /-- `POP`, primary opcode 0x1A (R283). -/
  | pop (f : Given RegIx)
  /-- `POP16`, primary opcode 0x1A (R284). -/
  | pop16 (f : Given RegIx)
  /-- `POP24`, primary opcode 0x1A (R285). -/
  | pop24 (f : Given RegIx)
  /-- `POP32`, primary opcode 0x1A (R286). -/
  | pop32 (f : Given Reg32)
  /-- `PUSH`, primary opcode 0x1C (R287). -/
  | push (f : Given RegIx)
  /-- `PUSH16`, primary opcode 0x1C (R288). -/
  | push16 (f : Given RegIx)
  /-- `PUSH24`, primary opcode 0x1C (R289). -/
  | push24 (f : Given RegIx)
  /-- `PUSH32`, primary opcode 0x1C (R290). -/
  | push32 (f : Given Reg32)
  /-- `INT`, primary opcode 0x1D (R321). -/
  | int (b1 : Byte)
  /-- `RAND`, primary opcode 0x1E (R188). -/
  | rand (b1 : Byte)
  /-- `MIN`, primary opcode 0x1F (R189). -/
  | min (b1 : Byte)
  /-- `MAX`, primary opcode 0x20 (R190). -/
  | max (b1 : Byte)
  /-- `DJNZ`, primary opcode 0x21 (R266). -/
  | djnz (b1 : Byte)
  /-- `DJNZ16`, primary opcode 0x21 (R267). -/
  | djnz16 (b1 : Byte)
  /-- `DJNZ24`, primary opcode 0x21 (R268). -/
  | djnz24 (b1 : Byte)
  /-- `DJNZ32`, primary opcode 0x21 (R269). -/
  | djnz32 (b1 : Byte)
  /-- `SETF`, primary opcode 0x24 (R254). -/
  | setf (b1 : Byte)
  /-- `RESF`, primary opcode 0x25 (R255). -/
  | resf (b1 : Byte)
  /-- `INVF`, primary opcode 0x26 (R256). -/
  | invf (b1 : Byte)
  /-- `LDF`, primary opcode 0x27 (R257). -/
  | ldf (b1 : Byte)
  /-- `REGS`, primary opcode 0x28 (R291). -/
  | regs (b1 : Byte)
  /-- `WAIT`, primary opcode 0x29 (R322). -/
  | wait (b1 : Byte)
  /-- `VDL`, primary opcode 0x2A (R323). -/
  | vdl (b1 : Byte)
  /-- `VCL`, primary opcode 0x2B (R324). -/
  | vcl (b1 : Byte)
  /-- `FIND`, primary opcode 0x2C (R325). -/
  | find (b1 : Byte)
  /-- `IMPLY`, primary opcode 0x30 (R221). -/
  | imply (v : BitVec 3) (k : BitVec 5)
  /-- `IMPLY16`, primary opcode 0x30 (R222). -/
  | imply16 (v : BitVec 3) (k : BitVec 5)
  /-- `IMPLY24`, primary opcode 0x30 (R223). -/
  | imply24 (v : BitVec 3) (k : BitVec 5)
  /-- `IMPLY32`, primary opcode 0x30 (R224). -/
  | imply32 (v : BitVec 3) (k : BitVec 5)
  /-- `NAND`, primary opcode 0x31 (R225). -/
  | nand (b1 : Byte)
  /-- `NAND16`, primary opcode 0x31 (R226). -/
  | nand16 (b1 : Byte)
  /-- `NAND24`, primary opcode 0x31 (R227). -/
  | nand24 (b1 : Byte)
  /-- `NAND32`, primary opcode 0x31 (R228). -/
  | nand32 (b1 : Byte)
  /-- `NOR`, primary opcode 0x32 (R229). -/
  | nor (b1 : Byte)
  /-- `NOR16`, primary opcode 0x32 (R230). -/
  | nor16 (b1 : Byte)
  /-- `NOR24`, primary opcode 0x32 (R231). -/
  | nor24 (b1 : Byte)
  /-- `NOR32`, primary opcode 0x32 (R232). -/
  | nor32 (b1 : Byte)
  /-- `XNOR`, primary opcode 0x33 (R233). -/
  | xnor (b1 : Byte)
  /-- `XNOR16`, primary opcode 0x33 (R234). -/
  | xnor16 (b1 : Byte)
  /-- `XNOR24`, primary opcode 0x33 (R235). -/
  | xnor24 (b1 : Byte)
  /-- `XNOR32`, primary opcode 0x33 (R236). -/
  | xnor32 (b1 : Byte)
  /-- `GETBITS`, primary opcode 0x38 (R237). -/
  | getbits (b1 : Byte)
  /-- `SETBITS`, primary opcode 0x39 (R238). -/
  | setbits (b1 : Byte)
  /-- `MEMF`, primary opcode 0x40 (R326). -/
  | memf (b1 : Byte)
  /-- `MEMC`, primary opcode 0x41 (R327). -/
  | memc (b1 : Byte)
  /-- `LDREGS`, primary opcode 0x46 (R293). -/
  | ldregs (b1 : Byte)
  /-- `STREGS`, primary opcode 0x47 (R294). -/
  | stregs (b1 : Byte)
  /-- `SDIV`, primary opcode 0x5C (R191). -/
  | sdiv (f : Given DivForm)
  /-- `SMUL`, primary opcode 0x5D (R192). -/
  | smul (b1 : Byte)
  /-- `SCP`, primary opcode 0x5E (R253). -/
  | scp (b1 : Byte)
  /-- `FREGS`, primary opcode 0x5F (R292). -/
  | fregs (b1 : Byte)
  /-- `POW`, primary opcode 0x60 (R301). -/
  | pow (b1 : Byte)
  /-- `SQR`, primary opcode 0x61 (R302). -/
  | sqr (b1 : Byte)
  /-- `CBR`, primary opcode 0x62 (R303). -/
  | cbr (b1 : Byte)
  /-- `ISQR`, primary opcode 0x63 (R304). -/
  | isqr (b1 : Byte)
  /-- `ISGN`, primary opcode 0x64 (R305). -/
  | isgn (b1 : Byte)
  /-- `SIN`, primary opcode 0x66 (R306). -/
  | sin (b1 : Byte)
  /-- `COS`, primary opcode 0x67 (R307). -/
  | cos (b1 : Byte)
  /-- `TAN`, primary opcode 0x68 (R308). -/
  | tan (b1 : Byte)
  /-- `ABS`, primary opcode 0x80 (R309). -/
  | abs (b1 : Byte)
  /-- `ROUND`, primary opcode 0x81 (R310). -/
  | round (b1 : Byte)
  /-- `FLOOR`, primary opcode 0x82 (R311). -/
  | floor (b1 : Byte)
  /-- `CEIL`, primary opcode 0x83 (R312). -/
  | ceil (b1 : Byte)
  /-- `PLAY`, primary opcode 0xA0 (R328). -/
  | play (b1 : Byte)
  /-- `SETVAR`, primary opcode 0xBE (R329). -/
  | setvar (f : Given SetForm)
  /-- `GETVAR`, primary opcode 0xBF (R330). -/
  | getvar (f : Given GetForm)
  /-- `RGB2HSL`, primary opcode 0xC0 (R331). -/
  | rgb2hsl (b1 : Byte)
  /-- `HSL2RGB`, primary opcode 0xC1 (R332). -/
  | hsl2rgb (b1 : Byte)
  /-- `RGB2HSB`, primary opcode 0xC2 (R333). -/
  | rgb2hsb (b1 : Byte)
  /-- `HSB2RGB`, primary opcode 0xC3 (R334). -/
  | hsb2rgb (b1 : Byte)
  /-- `DEBUG`, primary opcode 0xFC (R335). -/
  | debug (b1 : Byte)
  /-- `BREAK`, primary opcode 0xFD (R336). -/
  | brk (b1 : Byte)
  /-- `RETIF`, primary opcode 0xFE (R272). -/
  | retif (f : Given CondIx)
  /-- `RET`, primary opcode 0xFF (R273). -/
  | ret
deriving DecidableEq, Repr

end Sys2Proof
end

