-- ==== Sys2Proof/WellFormed.lean ====
section
/-! DEFINITION. Which instructions are well formed for a machine's parameters: every index names
something (10_state.md R23, R24, R30), every byte lies in the range its row of the opcode table has
(30_encoding.md R101, R109), and the parameter or the listed encoding that the form needs is there
(00_scope.md R6). A well-formed instruction is one that `encode` writes and `decode` reads back. -/

namespace Sys2Proof

/-- A general register index that names a register: 0 to 25 (R23). -/
def regOk (i : RegIx) : Bool := i.toNat < 26

/-- A float register index that names a register: 0 to 15 (R24). -/
def fregOk (f : FRegIx) : Bool := f.toNat < 16

/-- A condition index that names a condition: 0 to 15 (R30). -/
def condOk (k : CondIx) : Bool := k.toNat < 16

/-- The byte lies in a range of sub-opcodes, ends included. -/
def inRange (lo hi : Nat) (b : Byte) : Bool := lo ≤ b.toNat && b.toNat ≤ hi

/-! ## The parameters -/

/-- The sub-opcode values that the opcode table leaves for a form (R101, R170, R174); any value for a form
of another opcode than LD (DESIGN CHOICE, log entry 40). -/
def Form.range : Form → Nat × Nat
  | .ldImm .w16 | .ldReg .w16 | .ldMem .w16 _ => (13, 26)
  | .ldImm .w24 | .ldReg .w24 | .ldMem .w24 _ => (27, 41)
  | .ldImm .w32 | .ldReg .w32 | .ldMem .w32 _ => (42, 57)
  | .ldImm .w8 | .ldReg .w8 | .ldMem .w8 _ => (1, 0)
  | .stReg _ _ | .stFr _ => (58, 227)
  | .frFr | .frMem _ => (228, 243)
  | _ => (0, 255)

/-- Two variant numbers of one opcode are not the same (R261: "distinct within one opcode"). -/
def Params.distinct (a b : Option (BitVec 3)) : Bool := a.isNone || a != b

/-- Well-formed parameters: `SUBOP_rrr_IrrrI` in 27..41, `SUBOP_InnnI_r` in 58..227, the variants
of one opcode distinct (R6, D29, D34), every listed encoding in its range, under a pattern that is
supplied and can hold its operands, and none listed twice. -/
def Params.wf (p : Params) : Bool :=
  p.subopRrrInd.all (inRange 27 41) && p.subopAbsR.all (inRange 58 227) &&
  Params.distinct p.callNnn p.callCond && Params.distinct p.callrNnn p.callrCond &&
  Params.distinct p.jpNnn p.jpCond && Params.distinct p.jrNnn p.jrCond &&
  p.elsewhere.all fun r =>
    inRange r.form.range.1 r.form.range.2 r.sub && p.form? r.form.opcode r.sub == some r.form

/-- The parameters list a sub-opcode for the form, in the form's range. -/
def Params.lists (p : Params) (f : Form) : Bool :=
  (p.sub? f).any fun sub => inRange f.range.1 f.range.2 sub && p.form? f.opcode sub == some f

/-- The sub-opcode of LD is one of the two that R155 and R157 make parameters. -/
def Params.ldParam (p : Params) (sub : Byte) : Bool :=
  p.subopRrrInd == some sub || p.subopAbsR == some sub

/-- The parameters list a sub-opcode for a form of LD, one that is not of R155 or R157. -/
def Params.listsLd (p : Params) (f : Form) : Bool :=
  p.lists f && !(p.sub? f).any p.ldParam

/-- The base mnemonic of a shared primary opcode: the parameters list no other width for the byte. -/
def Params.isBase (p : Params) (op b1 : Byte) : Bool :=
  p.suffix? op b1 == none || p.suffix? op b1 == some .w8

/-- Which listed forms the row of LD with destination width `w` reads (R154 to R156). -/
def Form.isLd (w : Width) : Form → Bool
  | .ldImm u | .ldReg u | .ldMem u _ => u == w
  | _ => false

/-- Which listed forms the memory-destination row of LD reads (R157). -/
def Form.isSt : Form → Bool
  | .stReg _ _ | .stFr _ => true
  | _ => false

/-- Which listed forms the float-destination row of LD reads (R158). -/
def Form.isFr : Form → Bool
  | .frFr | .frMem _ => true
  | _ => false

/-! ## The instructions -/

/-- Every register that a memory operand names is one. -/
def MemOp.wf (m : MemOp) : Bool := m.regs.all regOk

/-- A form of LD to a register of width `w`. -/
def LdForm.wf (p : Params) {w : Width} : LdForm w → Bool
  | .imm d _ => regOk d && p.listsLd (.ldImm w)
  | .reg d s => regOk d && regOk s && p.listsLd (.ldReg w)
  | .mem d m => regOk d && m.wf && p.listsLd (.ldMem w m.mode)

/-- A form of LD to memory. -/
def StForm.wf (p : Params) : StForm → Bool
  | .reg w m s => regOk s && m.wf && p.listsLd (.stReg w m.mode)
  | .fr m f => fregOk f && m.wf && p.listsLd (.stFr m.mode)

/-- A form of LD to a float register. -/
def FrForm.wf (p : Params) : FrForm → Bool
  | .fr d s => fregOk d && fregOk s && p.listsLd .frFr
  | .mem d m => fregOk d && m.wf && p.listsLd (.frMem m.mode)

/-- The operands of an `_r_*` form of ADD or SUB. -/
def ArithForm.wf : ArithForm → Bool
  | .imm d _ => regOk d
  | .reg d s => regOk d && regOk s
  | .mem d m => regOk d && m.wf
  | .fr d f => regOk d && fregOk f

/-- The row of LD with destination width `w`, whose sub-opcodes are `lo` to `hi`. -/
def Given.wfLd (p : Params) {w : Width} (lo hi : Nat) : Given (LdForm w) → Bool
  | .form x => x.wf p
  | .unlisted sub => inRange lo hi sub && !p.ldParam sub && !(p.form? 0x01 sub).any (Form.isLd w)

/-- A row that is not LD and whose operands are `x`, listed as the form `f x`; `base` says whether the
row takes the bytes that are not listed. -/
def Given.wfOther {α : Type} (p : Params) (op : Byte) (base : Bool) (ok : α → Bool)
    (f : α → Form) : Given α → Bool
  | .form x => ok x && p.lists (f x)
  | .unlisted sub => base && (p.form? op sub).isNone

/-- The operand of PUSH32 or POP32. -/
def Reg32.wf : Reg32 → Bool
  | .gen i => regOk i
  | .fr f => fregOk f

/-- The form that lists PUSH32 of the operand. -/
def Reg32.pushForm : Reg32 → Form
  | .gen _ => .push .w32
  | .fr _ => .pushFr

/-- The form that lists POP32 of the operand. -/
def Reg32.popForm : Reg32 → Form
  | .gen _ => .pop .w32
  | .fr _ => .popFr

/-- A source operand of SETVAR or GETVAR. -/
def Src32.wf (x : Src32) : Bool := x.regs.all regOk

/-- The variant is the one supplied for the unconditional form (R261). -/
def wfNnn (nnn : Option (BitVec 3)) : Bool := nnn.isSome

/-- The variant is the one supplied for the conditional form, and the unconditional form has
another (R261). -/
def wfCond (nnn cond : Option (BitVec 3)) (k : CondIx) : Bool :=
  cond.isSome && cond != nnn && condOk k

/-- The variant is neither of the two supplied (R261). -/
def wfOtherVariant (nnn cond : Option (BitVec 3)) (v : BitVec 3) : Bool :=
  nnn != some v && cond != some v

/-- Well-formed instructions. -/
def Instr.wf (p : Params) : Instr → Bool
  | .nop => true
  | .ldRN d _ => regOk d
  | .ldRR d s => regOk d && regOk s
  | .ldRAbs d _ => regOk d
  | .ldRAbsImm d _ _ => regOk d
  | .ldRAbsR8 d _ q => regOk d && regOk q
  | .ldRAbsR16 d _ q => regOk d && regOk q
  | .ldRAbsR24 d _ q => regOk d && regOk q
  | .ldRInd d b => regOk d && regOk b
  | .ldRIndImm d b _ => regOk d && regOk b
  | .ldRIndR8 d b q => regOk d && regOk b && regOk q
  | .ldRIndR16 d b q => regOk d && regOk b && regOk q
  | .ldRIndR24 d b q => regOk d && regOk b && regOk q
  | .ldRFr d f => regOk d && fregOk f
  | .ldRr f => f.wfLd p 13 26
  | .ldRrr f => f.wfLd p 27 41
  | .ldRrrr f => f.wfLd p 42 57
  | .ldMem (.form x) => x.wf p
  | .ldMem (.unlisted b) =>
    inRange 58 227 b && !p.ldParam b && !(p.form? 0x01 b).any Form.isSt
  | .ldFr (.form x) => x.wf p
  | .ldFr (.unlisted b) =>
    inRange 228 243 b && !p.ldParam b && !(p.form? 0x01 b).any Form.isFr
  | .ldUndef b => inRange 244 255 b && !p.ldParam b
  | .ldRrrInd d b => regOk d && regOk b && p.subopRrrInd.any (inRange 27 41)
  | .ldAbsR s _ => regOk s && p.subopAbsR.any (inRange 58 227) && p.subopAbsR != p.subopRrrInd
  | .addRN d _ => regOk d
  | .addR (.form (.imm _ _)) => false
  | .addR (.form x) => x.wf
  | .addR (.unlisted b) => inRange 13 243 b && p.isBase 0x02 b
  | .addUndef b => inRange 244 255 b
  | .add16 b1 => inRange 13 243 b1 && p.suffix? 0x02 b1 == some .w16
  | .add24 b1 => inRange 13 243 b1 && p.suffix? 0x02 b1 == some .w24
  | .add32 b1 => inRange 13 243 b1 && p.suffix? 0x02 b1 == some .w32
  | .sub (.form (.fr _ _)) => false
  | .sub (.form x) => x.wf
  | .sub (.unlisted b) => inRange 12 243 b && p.isBase 0x03 b
  | .sub16 b1 => inRange 12 243 b1 && p.suffix? 0x03 b1 == some .w16
  | .sub24 b1 => inRange 12 243 b1 && p.suffix? 0x03 b1 == some .w24
  | .sub32 b1 => inRange 12 243 b1 && p.suffix? 0x03 b1 == some .w32
  | .subUndef b => inRange 244 255 b
  | .div f => f.wfOther p 0x04 true (fun x => regOk x.d && regOk x.s) (fun x => .div x.w)
  | .mul _ => true
  | .sl _ => true
  | .sr _ => true
  | .rl _ => true
  | .rr _ => true
  | .set _ => true
  | .res _ => true
  | .bit _ => true
  | .and b1 => p.isBase 0x0D b1
  | .and16 b1 => p.suffix? 0x0D b1 == some .w16
  | .and24 b1 => p.suffix? 0x0D b1 == some .w24
  | .and32 b1 => p.suffix? 0x0D b1 == some .w32
  | .or b1 => p.isBase 0x0E b1
  | .or16 b1 => p.suffix? 0x0E b1 == some .w16
  | .or24 b1 => p.suffix? 0x0E b1 == some .w24
  | .or32 b1 => p.suffix? 0x0E b1 == some .w32
  | .xor b1 => p.isBase 0x0F b1
  | .xor16 b1 => p.suffix? 0x0F b1 == some .w16
  | .xor24 b1 => p.suffix? 0x0F b1 == some .w24
  | .xor32 b1 => p.suffix? 0x0F b1 == some .w32
  | .inv _ => true
  | .ex _ _ => true
  | .cp _ _ => true
  | .inc b1 => p.isBase 0x13 b1
  | .inc16 b1 => p.suffix? 0x13 b1 == some .w16
  | .inc24 b1 => p.suffix? 0x13 b1 == some .w24
  | .inc32 b1 => p.suffix? 0x13 b1 == some .w32
  | .dec b1 => p.isBase 0x14 b1
  | .dec16 b1 => p.suffix? 0x14 b1 == some .w16
  | .dec24 b1 => p.suffix? 0x14 b1 == some .w24
  | .dec32 b1 => p.suffix? 0x14 b1 == some .w32
  | .callNnn _ => wfNnn p.callNnn
  | .callCond k _ => wfCond p.callNnn p.callCond k
  | .callOther v _ => wfOtherVariant p.callNnn p.callCond v
  | .callrNnn _ => wfNnn p.callrNnn
  | .callrCond k _ => wfCond p.callrNnn p.callrCond k
  | .callrOther v _ => wfOtherVariant p.callrNnn p.callrCond v
  | .jpNnn _ => wfNnn p.jpNnn
  | .jpCond k _ => wfCond p.jpNnn p.jpCond k
  | .jpOther v _ => wfOtherVariant p.jpNnn p.jpCond v
  | .jrNnn _ => wfNnn p.jrNnn
  | .jrCond k _ => wfCond p.jrNnn p.jrCond k
  | .jrOther v _ => wfOtherVariant p.jrNnn p.jrCond v
  | .pop f => f.wfOther p 0x1A true regOk (fun _ => .pop .w8)
  | .pop16 f => f.wfOther p 0x1A false regOk (fun _ => .pop .w16)
  | .pop24 f => f.wfOther p 0x1A false regOk (fun _ => .pop .w24)
  | .pop32 f => f.wfOther p 0x1A false Reg32.wf Reg32.popForm
  | .push f => f.wfOther p 0x1C true regOk (fun _ => .push .w8)
  | .push16 f => f.wfOther p 0x1C false regOk (fun _ => .push .w16)
  | .push24 f => f.wfOther p 0x1C false regOk (fun _ => .push .w24)
  | .push32 f => f.wfOther p 0x1C false Reg32.wf Reg32.pushForm
  | .int _ => true
  | .rand _ => true
  | .min _ => true
  | .max _ => true
  | .djnz b1 => p.isBase 0x21 b1
  | .djnz16 b1 => p.suffix? 0x21 b1 == some .w16
  | .djnz24 b1 => p.suffix? 0x21 b1 == some .w24
  | .djnz32 b1 => p.suffix? 0x21 b1 == some .w32
  | .setf _ => true
  | .resf _ => true
  | .invf _ => true
  | .ldf _ => true
  | .regs _ => true
  | .wait _ => true
  | .vdl _ => true
  | .vcl _ => true
  | .find _ => true
  | .imply v k => p.isBase 0x30 (v ++ k)
  | .imply16 v k => p.suffix? 0x30 (v ++ k) == some .w16
  | .imply24 v k => p.suffix? 0x30 (v ++ k) == some .w24
  | .imply32 v k => p.suffix? 0x30 (v ++ k) == some .w32
  | .nand b1 => p.isBase 0x31 b1
  | .nand16 b1 => p.suffix? 0x31 b1 == some .w16
  | .nand24 b1 => p.suffix? 0x31 b1 == some .w24
  | .nand32 b1 => p.suffix? 0x31 b1 == some .w32
  | .nor b1 => p.isBase 0x32 b1
  | .nor16 b1 => p.suffix? 0x32 b1 == some .w16
  | .nor24 b1 => p.suffix? 0x32 b1 == some .w24
  | .nor32 b1 => p.suffix? 0x32 b1 == some .w32
  | .xnor b1 => p.isBase 0x33 b1
  | .xnor16 b1 => p.suffix? 0x33 b1 == some .w16
  | .xnor24 b1 => p.suffix? 0x33 b1 == some .w24
  | .xnor32 b1 => p.suffix? 0x33 b1 == some .w32
  | .getbits _ => true
  | .setbits _ => true
  | .memf _ => true
  | .memc _ => true
  | .ldregs _ => true
  | .stregs _ => true
  | .sdiv f => f.wfOther p 0x5C true (fun x => regOk x.d && regOk x.s) (fun x => .sdiv x.w)
  | .smul _ => true
  | .scp _ => true
  | .fregs _ => true
  | .pow _ => true
  | .sqr _ => true
  | .cbr _ => true
  | .isqr _ => true
  | .isgn _ => true
  | .sin _ => true
  | .cos _ => true
  | .tan _ => true
  | .abs _ => true
  | .round _ => true
  | .floor _ => true
  | .ceil _ => true
  | .play _ => true
  | .setvar f => f.wfOther p 0xBE true (fun x => x.k.wf && x.v.wf) (fun x => .setvar x.k.kind x.v.kind)
  | .getvar f => f.wfOther p 0xBF true (fun x => regOk x.d && x.k.wf) (fun x => .getvar x.k.kind)
  | .rgb2hsl _ => true
  | .hsl2rgb _ => true
  | .rgb2hsb _ => true
  | .hsb2rgb _ => true
  | .debug _ => true
  | .brk _ => true
  | .retif f => f.wfOther p 0xFE true condOk (fun _ => .retif)
  | .ret => true

end Sys2Proof
end

