-- ==== Sys2Proof/Decode.lean ====
section
/-! DEFINITION. Decoding and encoding (30_encoding.md R90 to R110). The decoder reads the bytes of an
instruction through a function (byte `k` of the instruction, R7); it is total: an assigned primary
opcode always gives an instruction (one that the spec does not specify is refused, or faults, when it
is executed, R109), an unassigned one is rejected by name (R94). The byte-order helpers and the
parameters of the machine that `State.reset` starts stand here as well. -/

namespace Sys2Proof

/-! ## Byte order (R61) -/

/-- The big-endian value of the bytes `b 0`, `b 1`, ... (R61, R62). -/
def be (w : Width) (b : Nat → Byte) : BitVec w.bits :=
  match w with
  | .w8 => b 0
  | .w16 => b 0 ++ b 1
  | .w24 => b 0 ++ b 1 ++ b 2
  | .w32 => b 0 ++ b 1 ++ b 2 ++ b 3

/-- Byte `j` of a value in big-endian order: byte 0 is the most significant (R61, R63). -/
def byteOf (w : Width) (v : BitVec w.bits) (j : Nat) : Byte :=
  v.extractLsb' (8 * (w.bytes - 1 - j)) 8

/-- The bytes of a value in big-endian order (R61, R104). -/
def bytesOf (w : Width) (v : BitVec w.bits) : List Byte :=
  (List.range w.bytes).map (byteOf w v)

/-! ## Fields of an instruction -/

/-- The register index in byte `k`: its low 5 bits, bits 7:5 ignored (R103). Log entries 19, 20. -/
def ixAt (get : Nat → Byte) (k : Nat) : BitVec 5 := (get k).setWidth 5

/-- The 24-bit operand at bytes `k` to `k + 2` (R105, R106). -/
def addrAt (get : Nat → Byte) (k : Nat) : Addr := be .w24 fun j => get (k + j)

/-- "Upper 3 bits" of the sub-opcode: the variant (R97, R98). -/
def variantOf (sub : Byte) : BitVec 3 := sub.extractLsb' 5 3

/-- "Lower 5 bits" of the sub-opcode: the register or flag index (R97, R98). -/
def lowOf (sub : Byte) : BitVec 5 := sub.setWidth 5

/-- The sub-opcode byte of a variant and an index (R97, R98). -/
def subOf (v : BitVec 3) (k : BitVec 5) : Byte := v ++ k

/-- The byte of a register operand: the index, with bits 7:5 zero (R103). -/
def ixByte (i : BitVec 5) : Byte := i.setWidth 8

/-- The memory operand of mode `m` whose parts begin at byte `k`, in the order the notation writes
them (R102). -/
def memAt (m : Mode) (get : Nat → Byte) (k : Nat) : MemOp :=
  match m with
  | .abs => .abs (addrAt get k)
  | .absImm => .absImm (addrAt get k) (addrAt get (k + 3))
  | .absR8 => .absR8 (addrAt get k) (ixAt get (k + 3))
  | .absR16 => .absR16 (addrAt get k) (ixAt get (k + 3))
  | .absR24 => .absR24 (addrAt get k) (ixAt get (k + 3))
  | .ind => .ind (ixAt get k)
  | .indImm => .indImm (ixAt get k) (addrAt get (k + 1))
  | .indR8 => .indR8 (ixAt get k) (ixAt get (k + 1))
  | .indR16 => .indR16 (ixAt get k) (ixAt get (k + 1))
  | .indR24 => .indR24 (ixAt get k) (ixAt get (k + 1))

/-- The bytes of a memory operand (R102). -/
def MemOp.encode : MemOp → List Byte
  | .abs a => bytesOf .w24 a
  | .absImm a o => bytesOf .w24 a ++ bytesOf .w24 o
  | .absR8 a q | .absR16 a q | .absR24 a q => bytesOf .w24 a ++ [ixByte q]
  | .ind b => [ixByte b]
  | .indImm b o => ixByte b :: bytesOf .w24 o
  | .indR8 b q | .indR16 b q | .indR24 b q => [ixByte b, ixByte q]

/-- How many bytes a memory operand has. -/
def MemOp.size (m : MemOp) : Nat :=
  match m with
  | .abs _ => 3
  | .absImm _ _ => 6
  | .absR8 _ _ | .absR16 _ _ | .absR24 _ _ => 4
  | .ind _ => 1
  | .indImm _ _ => 4
  | .indR8 _ _ | .indR16 _ _ | .indR24 _ _ => 2

/-- The multi-byte fetches of a memory operand whose parts begin at byte `k`: where each begins in
the instruction, and its width (R92, R102). -/
def MemOp.fetches (m : MemOp) (k : Nat) : List (Nat × Width) :=
  match m with
  | .abs _ | .absR8 _ _ | .absR16 _ _ | .absR24 _ _ => [(k, .w24)]
  | .absImm _ _ => [(k, .w24), (k + 3, .w24)]
  | .indImm _ _ => [(k + 1, .w24)]
  | .ind _ | .indR8 _ _ | .indR16 _ _ | .indR24 _ _ => []

/-- A 32-bit source operand of the kind at byte `k` (R103, R104). -/
def src32At (kind : SrcKind) (get : Nat → Byte) (k : Nat) : Src32 :=
  match kind with
  | .imm => .imm (be .w32 fun j => get (k + j))
  | .reg => .reg (ixAt get k)

/-- How many bytes a 32-bit source operand of the kind has. -/
def SrcKind.size : SrcKind → Nat
  | .imm => 4
  | .reg => 1

/-- The bytes of a 32-bit source operand. -/
def Src32.encode : Src32 → List Byte
  | .imm v => bytesOf .w32 v
  | .reg i => [ixByte i]

/-- Whether the value of SETVAR stands before its index: register indices come before immediates
(R116). Otherwise the index is first (log entry 2). -/
def SrcKind.valueFirst (k v : SrcKind) : Bool :=
  match k, v with
  | .imm, .reg => true
  | _, _ => false

/-- The operands of SETVAR in the order they are emitted (R116). -/
def SetForm.emitted (x : SetForm) : Src32 × Src32 :=
  if x.k.kind.valueFirst x.v.kind then (x.v, x.k) else (x.k, x.v)

/-- The operand bytes of SETVAR (R116). -/
def SetForm.encode (x : SetForm) : List Byte := x.emitted.1.encode ++ x.emitted.2.encode

/-- The operands of SETVAR, of the kinds `k` (index) and `v` (value), that begin at byte `n` (R116). -/
def setFormAt (k v : SrcKind) (get : Nat → Byte) (n : Nat) : SetForm :=
  if k.valueFirst v then ⟨src32At k get (n + v.size), src32At v get n⟩
  else ⟨src32At k get n, src32At v get (n + k.size)⟩

/-- The multi-byte fetch of a 32-bit source operand at byte `k`. -/
def Src32.fetches (x : Src32) (k : Nat) : List (Nat × Width) :=
  match x with
  | .imm _ => [(k, .w32)]
  | .reg _ => []

/-! ## Decoding -/

/-- Why the decoder gives no instruction. -/
inductive DecodeError where
  /-- The primary opcode is one of the 178 values with no mnemonic (R94). -/
  | unassignedOpcode (op : Byte)
  /-- A list of bytes ends before the instruction does (`decode` only). -/
  | truncated
deriving DecidableEq, Repr

/-- The mnemonic of a shared primary opcode that the byte after it stands for: the base mnemonic
where the parameters list no width suffix for the byte. What tells the mnemonics apart is not in the
source (N29); that the whole byte after the opcode does, for IMPLY as for the others, is the model's
choice. DESIGN CHOICE, log entry 27. -/
def shared (p : Params) (op : Byte) (b1 : Byte) (base i16 i24 i32 : Instr) : Instr :=
  match p.suffix? op b1 with
  | some .w16 => i16
  | some .w24 => i24
  | some .w32 => i32
  | _ => base

/-- LD to a register of width `w`, sub-opcode `sub` (R154 to R156). -/
def decodeLdForm (p : Params) (w : Width) (sub : Byte) (get : Nat → Byte) : Given (LdForm w) :=
  match p.form? 0x01 sub with
  | some (.ldImm u) =>
    if u = w then .form (.imm (ixAt get 2) (be w fun j => get (3 + j))) else .unlisted sub
  | some (.ldReg u) => if u = w then .form (.reg (ixAt get 2) (ixAt get 3)) else .unlisted sub
  | some (.ldMem u m) => if u = w then .form (.mem (ixAt get 2) (memAt m get 3)) else .unlisted sub
  | _ => .unlisted sub

/-- LD to memory, sub-opcode `sub`: the register byte comes before the address (R157). -/
def decodeSt (p : Params) (sub : Byte) (get : Nat → Byte) : Given StForm :=
  match p.form? 0x01 sub with
  | some (.stReg w m) => .form (.reg w (memAt m get 3) (ixAt get 2))
  | some (.stFr m) => .form (.fr (memAt m get 3) (ixAt get 2))
  | _ => .unlisted sub

/-- LD to a float register, sub-opcode `sub` (R158). -/
def decodeFr (p : Params) (sub : Byte) (get : Nat → Byte) : Given FrForm :=
  match p.form? 0x01 sub with
  | some .frFr => .form (.fr (ixAt get 2) (ixAt get 3))
  | some (.frMem m) => .form (.mem (ixAt get 2) (memAt m get 3))
  | _ => .unlisted sub

/-- LD, primary opcode 0x01: sub-opcodes 0 to 12 are the `_r_*` constants (R100), then the two
parameters (R155, R157), then the ranges of R101. The layouts of 5 and 8 to 12 are inferred (R102; log
entry 36). -/
def decodeLd (p : Params) (get : Nat → Byte) : Instr :=
  let sub := get 1
  let d := ixAt get 2
  match sub.toNat with
  | 0 => .ldRN d (get 3)
  | 1 => .ldRR d (ixAt get 3)
  | 2 => .ldRAbs d (addrAt get 3)
  | 3 => .ldRAbsImm d (addrAt get 3) (addrAt get 6)
  | 4 => .ldRAbsR8 d (addrAt get 3) (ixAt get 6)
  | 5 => .ldRAbsR16 d (addrAt get 3) (ixAt get 6)
  | 6 => .ldRAbsR24 d (addrAt get 3) (ixAt get 6)
  | 7 => .ldRInd d (ixAt get 3)
  | 8 => .ldRIndImm d (ixAt get 3) (addrAt get 4)
  | 9 => .ldRIndR8 d (ixAt get 3) (ixAt get 4)
  | 10 => .ldRIndR16 d (ixAt get 3) (ixAt get 4)
  | 11 => .ldRIndR24 d (ixAt get 3) (ixAt get 4)
  | 12 => .ldRFr d (ixAt get 3)
  | n =>
    if p.subopRrrInd = some sub then .ldRrrInd d (ixAt get 3)
    else if p.subopAbsR = some sub then .ldAbsR d (addrAt get 3)
    else if n ≤ 26 then .ldRr (decodeLdForm p .w16 sub get)
    else if n ≤ 41 then .ldRrr (decodeLdForm p .w24 sub get)
    else if n ≤ 57 then .ldRrrr (decodeLdForm p .w32 sub get)
    else if n ≤ 227 then .ldMem (decodeSt p sub get)
    else if n ≤ 243 then .ldFr (decodeFr p sub get)
    else .ldUndef sub

/-- The memory mode of an `_r_*` constant, 2 to 11 (R100). -/
def modeOfSub (n : Nat) : Option Mode :=
  match n with
  | 2 => some .abs
  | 3 => some .absImm
  | 4 => some .absR8
  | 5 => some .absR16
  | 6 => some .absR24
  | 7 => some .ind
  | 8 => some .indImm
  | 9 => some .indR8
  | 10 => some .indR16
  | 11 => some .indR24
  | _ => none

/-- The `_r_*` constant of a memory mode (R100). -/
def Mode.sub : Mode → Byte
  | .abs => 2
  | .absImm => 3
  | .absR8 => 4
  | .absR16 => 5
  | .absR24 => 6
  | .ind => 7
  | .indImm => 8
  | .indR8 => 9
  | .indR16 => 10
  | .indR24 => 11

/-- The operands of ADD and SUB by the shared numbering of the `_r_*` constants (R100, R102, R107, R170,
R174); `unlisted` from 13 on. -/
def decodeArith (get : Nat → Byte) : Given ArithForm :=
  match (get 1).toNat with
  | 0 => .form (.imm (ixAt get 2) (get 3))
  | 1 => .form (.reg (ixAt get 2) (ixAt get 3))
  | 12 => .form (.fr (ixAt get 2) (ixAt get 3))
  | n =>
    match modeOfSub n with
    | some m => .form (.mem (ixAt get 2) (memAt m get 3))
    | none => .unlisted (get 1)

/-- ADD, primary opcode 0x02 (R170 to R173). -/
def decodeAdd (p : Params) (get : Nat → Byte) : Instr :=
  if get 1 = 0 then .addRN (ixAt get 2) (get 3)
  else if (get 1).toNat < 13 then .addR (decodeArith get)
  else if (get 1).toNat ≤ 243 then
    shared p 0x02 (get 1) (.addR (.unlisted (get 1))) (.add16 (get 1)) (.add24 (get 1)) (.add32 (get 1))
  else .addUndef (get 1)

/-- SUB, primary opcode 0x03 (R174 to R177, R109). -/
def decodeSub (p : Params) (get : Nat → Byte) : Instr :=
  if (get 1).toNat < 12 then .sub (decodeArith get)
  else if (get 1).toNat ≤ 243 then
    shared p 0x03 (get 1) (.sub (.unlisted (get 1))) (.sub16 (get 1)) (.sub24 (get 1)) (.sub32 (get 1))
  else .subUndef (get 1)

/-- PUSH, PUSH16, PUSH24, PUSH32, primary opcode 0x1C (R287 to R290), where the
pattern of the opcode puts the operand (R95 to R99; log entry 37). A byte 1 that is not listed is class 2
of R109 under every pattern: one of 244 to 255 is refused, and not the fault it is for LD, ADD and SUB
(DESIGN CHOICE, log entry 40; also in `decodePop`, `decodeDiv`, `decodeSdiv`, `decodeSetvar`, `decodeGetvar`). -/
def decodePush (p : Params) (get : Nat → Byte) : Instr :=
  match p.form? 0x1C (get 1) with
  | some (.push .w8) => .push (.form (ixAt get (p.lead 0x1C)))
  | some (.push .w16) => .push16 (.form (ixAt get (p.lead 0x1C)))
  | some (.push .w24) => .push24 (.form (ixAt get (p.lead 0x1C)))
  | some (.push .w32) => .push32 (.form (.gen (ixAt get (p.lead 0x1C))))
  | some .pushFr => .push32 (.form (.fr (ixAt get (p.lead 0x1C))))
  | _ => .push (.unlisted (get 1))

/-- POP, POP16, POP24, POP32, primary opcode 0x1A (R283 to R286), where the
pattern of the opcode puts the operand (R95 to R99; log entries 37 and 40). -/
def decodePop (p : Params) (get : Nat → Byte) : Instr :=
  match p.form? 0x1A (get 1) with
  | some (.pop .w8) => .pop (.form (ixAt get (p.lead 0x1A)))
  | some (.pop .w16) => .pop16 (.form (ixAt get (p.lead 0x1A)))
  | some (.pop .w24) => .pop24 (.form (ixAt get (p.lead 0x1A)))
  | some (.pop .w32) => .pop32 (.form (.gen (ixAt get (p.lead 0x1A))))
  | some .popFr => .pop32 (.form (.fr (ixAt get (p.lead 0x1A))))
  | _ => .pop (.unlisted (get 1))

/-- DIV, primary opcode 0x04 (R178), by the pattern of the opcode (log entries 37 and 40). -/
def decodeDiv (p : Params) (get : Nat → Byte) : Given DivForm :=
  match p.form? 0x04 (get 1) with
  | some (.div w) => .form ⟨w, ixAt get (p.lead 0x04), ixAt get (p.lead 0x04 + 1)⟩
  | _ => .unlisted (get 1)

/-- SDIV, primary opcode 0x5C (R191), by the pattern of the opcode (log entries 37 and 40). -/
def decodeSdiv (p : Params) (get : Nat → Byte) : Given DivForm :=
  match p.form? 0x5C (get 1) with
  | some (.sdiv w) => .form ⟨w, ixAt get (p.lead 0x5C), ixAt get (p.lead 0x5C + 1)⟩
  | _ => .unlisted (get 1)

/-- SETVAR, primary opcode 0xBE (R329), by the pattern of the opcode (log entries 37 and 40). -/
def decodeSetvar (p : Params) (get : Nat → Byte) : Given SetForm :=
  match p.form? 0xBE (get 1) with
  | some (.setvar k v) => .form (setFormAt k v get (p.lead 0xBE))
  | _ => .unlisted (get 1)

/-- GETVAR, primary opcode 0xBF (R330), by the pattern of the opcode (log entries 37 and 40). -/
def decodeGetvar (p : Params) (get : Nat → Byte) : Given GetForm :=
  match p.form? 0xBF (get 1) with
  | some (.getvar k) => .form ⟨ixAt get (p.lead 0xBF), src32At k get (p.lead 0xBF + 1)⟩
  | _ => .unlisted (get 1)

/-- RETIF, primary opcode 0xFE (R272), by the pattern of the opcode (log entries 3 and 37). -/
def decodeRetif (p : Params) (get : Nat → Byte) : Given CondIx :=
  match p.form? 0xFE (get 1) with
  | some .retif => .form (ixAt get (p.lead 0xFE))
  | _ => .unlisted (get 1)

/-- CALL, CALLR, JP, JR: the sub-opcode's variant chooses the form (R261). -/
def decodeJump (nnn cond : Option (BitVec 3)) (get : Nat → Byte) (iNnn : Addr → Instr)
    (iCond : CondIx → Addr → Instr) (iOther : BitVec 3 → BitVec 5 → Instr) : Instr :=
  if nnn = some (variantOf (get 1)) then iNnn (addrAt get 2)
  else if cond = some (variantOf (get 1)) then iCond (lowOf (get 1)) (addrAt get 2)
  else iOther (variantOf (get 1)) (lowOf (get 1))

/-- The instruction whose byte `k` is `get k` (R91, R93, R94). -/
def decodeAt (p : Params) (get : Nat → Byte) : Except DecodeError Instr :=
  match (get 0).toNat with
  | 0x00 => .ok .nop
  | 0x01 => .ok (decodeLd p get)
  | 0x02 => .ok (decodeAdd p get)
  | 0x03 => .ok (decodeSub p get)
  | 0x04 => .ok (.div (decodeDiv p get))
  | 0x05 => .ok (.mul (get 1))
  | 0x06 => .ok (.sl (get 1))
  | 0x07 => .ok (.sr (get 1))
  | 0x08 => .ok (.rl (get 1))
  | 0x09 => .ok (.rr (get 1))
  | 0x0A => .ok (.set (get 1))
  | 0x0B => .ok (.res (get 1))
  | 0x0C => .ok (.bit (get 1))
  | 0x0D => .ok (shared p 0x0D (get 1) (.and (get 1)) (.and16 (get 1)) (.and24 (get 1)) (.and32 (get 1)))
  | 0x0E => .ok (shared p 0x0E (get 1) (.or (get 1)) (.or16 (get 1)) (.or24 (get 1)) (.or32 (get 1)))
  | 0x0F => .ok (shared p 0x0F (get 1) (.xor (get 1)) (.xor16 (get 1)) (.xor24 (get 1)) (.xor32 (get 1)))
  | 0x10 => .ok (.inv (get 1))
  | 0x11 => .ok (.ex (variantOf (get 1)) (lowOf (get 1)))
  | 0x12 => .ok (.cp (variantOf (get 1)) (lowOf (get 1)))
  | 0x13 => .ok (shared p 0x13 (get 1) (.inc (get 1)) (.inc16 (get 1)) (.inc24 (get 1)) (.inc32 (get 1)))
  | 0x14 => .ok (shared p 0x14 (get 1) (.dec (get 1)) (.dec16 (get 1)) (.dec24 (get 1)) (.dec32 (get 1)))
  | 0x15 => .ok (decodeJump p.callNnn p.callCond get .callNnn .callCond .callOther)
  | 0x16 => .ok (decodeJump p.callrNnn p.callrCond get .callrNnn .callrCond .callrOther)
  | 0x17 => .ok (decodeJump p.jpNnn p.jpCond get .jpNnn .jpCond .jpOther)
  | 0x18 => .ok (decodeJump p.jrNnn p.jrCond get .jrNnn .jrCond .jrOther)
  | 0x1A => .ok (decodePop p get)
  | 0x1C => .ok (decodePush p get)
  | 0x1D => .ok (.int (get 1))
  | 0x1E => .ok (.rand (get 1))
  | 0x1F => .ok (.min (get 1))
  | 0x20 => .ok (.max (get 1))
  | 0x21 => .ok (shared p 0x21 (get 1) (.djnz (get 1)) (.djnz16 (get 1)) (.djnz24 (get 1)) (.djnz32 (get 1)))
  | 0x24 => .ok (.setf (get 1))
  | 0x25 => .ok (.resf (get 1))
  | 0x26 => .ok (.invf (get 1))
  | 0x27 => .ok (.ldf (get 1))
  | 0x28 => .ok (.regs (get 1))
  | 0x29 => .ok (.wait (get 1))
  | 0x2A => .ok (.vdl (get 1))
  | 0x2B => .ok (.vcl (get 1))
  | 0x2C => .ok (.find (get 1))
  | 0x30 => .ok (shared p 0x30 (get 1) (.imply (variantOf (get 1)) (lowOf (get 1)))
      (.imply16 (variantOf (get 1)) (lowOf (get 1)))
      (.imply24 (variantOf (get 1)) (lowOf (get 1)))
      (.imply32 (variantOf (get 1)) (lowOf (get 1))))
  | 0x31 => .ok (shared p 0x31 (get 1) (.nand (get 1)) (.nand16 (get 1)) (.nand24 (get 1)) (.nand32 (get 1)))
  | 0x32 => .ok (shared p 0x32 (get 1) (.nor (get 1)) (.nor16 (get 1)) (.nor24 (get 1)) (.nor32 (get 1)))
  | 0x33 => .ok (shared p 0x33 (get 1) (.xnor (get 1)) (.xnor16 (get 1)) (.xnor24 (get 1)) (.xnor32 (get 1)))
  | 0x38 => .ok (.getbits (get 1))
  | 0x39 => .ok (.setbits (get 1))
  | 0x40 => .ok (.memf (get 1))
  | 0x41 => .ok (.memc (get 1))
  | 0x46 => .ok (.ldregs (get 1))
  | 0x47 => .ok (.stregs (get 1))
  | 0x5C => .ok (.sdiv (decodeSdiv p get))
  | 0x5D => .ok (.smul (get 1))
  | 0x5E => .ok (.scp (get 1))
  | 0x5F => .ok (.fregs (get 1))
  | 0x60 => .ok (.pow (get 1))
  | 0x61 => .ok (.sqr (get 1))
  | 0x62 => .ok (.cbr (get 1))
  | 0x63 => .ok (.isqr (get 1))
  | 0x64 => .ok (.isgn (get 1))
  | 0x66 => .ok (.sin (get 1))
  | 0x67 => .ok (.cos (get 1))
  | 0x68 => .ok (.tan (get 1))
  | 0x80 => .ok (.abs (get 1))
  | 0x81 => .ok (.round (get 1))
  | 0x82 => .ok (.floor (get 1))
  | 0x83 => .ok (.ceil (get 1))
  | 0xA0 => .ok (.play (get 1))
  | 0xBE => .ok (.setvar (decodeSetvar p get))
  | 0xBF => .ok (.getvar (decodeGetvar p get))
  | 0xC0 => .ok (.rgb2hsl (get 1))
  | 0xC1 => .ok (.hsl2rgb (get 1))
  | 0xC2 => .ok (.rgb2hsb (get 1))
  | 0xC3 => .ok (.hsb2rgb (get 1))
  | 0xFC => .ok (.debug (get 1))
  | 0xFD => .ok (.brk (get 1))
  | 0xFE => .ok (.retif (decodeRetif p get))
  | 0xFF => .ok .ret
  | _ => .error (.unassignedOpcode (get 0))

/-! ## Lengths and operand fetches -/

/-- How many bytes an `_r_*` form of ADD or SUB has (R102, R107). -/
def ArithForm.length : ArithForm → Nat
  | .imm _ _ | .reg _ _ | .fr _ _ => 4
  | .mem _ m => 3 + m.size

/-- How many bytes the instruction has (R102, R107); where the pattern of its opcode is a parameter, the
operands from `Params.lead` on; for an instruction that the spec does not specify, the two bytes the
decoder looks at. NOP and RET have the sub-opcode byte when `SUBOP_PRESENT` says so (R260, R273). -/
def Instr.length (p : Params) : Instr → Nat
  | .nop => if p.subopPresent? 0x00 = some true then 2 else 1
  | .ret => if p.subopPresent? 0xFF = some true then 2 else 1
  | .ldRN _ _ | .ldRR _ _ | .ldRInd _ _ | .ldRFr _ _ | .ldRrrInd _ _ | .addRN _ _ => 4
  | .ldRAbs _ _ | .ldAbsR _ _ => 6
  | .ldRAbsImm _ _ _ => 9
  | .ldRAbsR8 _ _ _ | .ldRAbsR16 _ _ _ | .ldRAbsR24 _ _ _ | .ldRIndImm _ _ _ => 7
  | .ldRIndR8 _ _ _ | .ldRIndR16 _ _ _ | .ldRIndR24 _ _ _ => 5
  | .ldRr (.form (.imm _ _)) => 5
  | .ldRrr (.form (.imm _ _)) => 6
  | .ldRrrr (.form (.imm _ _)) => 7
  | .ldRr (.form (.reg _ _)) | .ldRrr (.form (.reg _ _)) | .ldRrrr (.form (.reg _ _)) => 4
  | .ldRr (.form (.mem _ m)) | .ldRrr (.form (.mem _ m)) | .ldRrrr (.form (.mem _ m)) => 3 + m.size
  | .ldMem (.form (.reg _ m _)) | .ldMem (.form (.fr m _)) => 3 + m.size
  | .ldFr (.form (.fr _ _)) => 4
  | .ldFr (.form (.mem _ m)) => 3 + m.size
  | .addR (.form x) | .sub (.form x) => x.length
  | .div (.form _) => p.lead 0x04 + 2
  | .sdiv (.form _) => p.lead 0x5C + 2
  | .callNnn _ | .callCond _ _ | .callrNnn _ | .callrCond _ _ => 5
  | .jpNnn _ | .jpCond _ _ | .jrNnn _ | .jrCond _ _ => 5
  | .pop (.form _) | .pop16 (.form _) | .pop24 (.form _) | .pop32 (.form _) => p.lead 0x1A + 1
  | .push (.form _) | .push16 (.form _) | .push24 (.form _) | .push32 (.form _) => p.lead 0x1C + 1
  | .setvar (.form x) => p.lead 0xBE + x.k.kind.size + x.v.kind.size
  | .getvar (.form x) => p.lead 0xBF + 1 + x.k.kind.size
  | .retif (.form _) => p.lead 0xFE + 1
  | _ => 2

/-- The multi-byte operand fetches of the instruction, in order: where each begins in the
instruction, and its width (R92, R102, R105). A fetch of one byte never faults (R65). -/
def Instr.fetches (p : Params) : Instr → List (Nat × Width)
  | .ldRAbs _ _ | .ldAbsR _ _ => [(3, .w24)]
  | .ldRAbsImm _ _ _ => [(3, .w24), (6, .w24)]
  | .ldRAbsR8 _ _ _ | .ldRAbsR16 _ _ _ | .ldRAbsR24 _ _ _ => [(3, .w24)]
  | .ldRIndImm _ _ _ => [(4, .w24)]
  | .ldRr (.form (.imm _ _)) => [(3, .w16)]
  | .ldRrr (.form (.imm _ _)) => [(3, .w24)]
  | .ldRrrr (.form (.imm _ _)) => [(3, .w32)]
  | .ldRr (.form (.mem _ m)) | .ldRrr (.form (.mem _ m)) | .ldRrrr (.form (.mem _ m)) => m.fetches 3
  | .ldMem (.form (.reg _ m _)) | .ldMem (.form (.fr m _)) => m.fetches 3
  | .ldFr (.form (.mem _ m)) => m.fetches 3
  | .addR (.form (.mem _ m)) | .sub (.form (.mem _ m)) => m.fetches 3
  | .callNnn _ | .callCond _ _ | .callrNnn _ | .callrCond _ _ => [(2, .w24)]
  | .jpNnn _ | .jpCond _ _ | .jrNnn _ | .jrCond _ _ => [(2, .w24)]
  | .setvar (.form x) =>
    x.emitted.1.fetches (p.lead 0xBE) ++ x.emitted.2.fetches (p.lead 0xBE + x.emitted.1.kind.size)
  | .getvar (.form x) => x.k.fetches (p.lead 0xBF + 1)
  | _ => []

/-- The instruction at the head of a list of bytes, rejected by name where the primary opcode is
unassigned or the list is too short. -/
def decode (p : Params) (bs : List Byte) : Except DecodeError Instr :=
  match decodeAt p fun k => bs.getD k 0 with
  | .error e => .error e
  | .ok i => if i.length p ≤ bs.length then .ok i else .error .truncated

/-! ## Encoding (R116) -/

/-- The bytes of LD to a register of width `w` after the sub-opcode (R102). -/
def LdForm.operands {w : Width} : LdForm w → List Byte
  | .imm d v => ixByte d :: bytesOf w v
  | .reg d s => [ixByte d, ixByte s]
  | .mem d m => ixByte d :: m.encode

/-- The form that lists LD to a register. -/
def LdForm.listed {w : Width} : LdForm w → Form
  | .imm _ _ => .ldImm w
  | .reg _ _ => .ldReg w
  | .mem _ m => .ldMem w m.mode

/-- The bytes of a listed form: the value `sub` and the operands as the pattern of the opcode places
them (R96 to R98), the first operand in the low bits of byte 1 under patterns 2 and 3. -/
def Params.place (p : Params) (op sub : Byte) (operands : List Byte) : List Byte :=
  match p.subop? op with
  | some .absent => op :: operands
  | some .packed =>
    match operands with
    | [] => [op, sub]
    | b :: r => op :: subOf (variantOf sub) (lowOf b) :: r
  | _ => op :: sub :: operands

/-- The bytes of a row whose encodings the parameters list. -/
def Given.encode {α : Type} (p : Params) (op : Byte) (listed : α → Form) (operands : α → List Byte) :
    Given α → Option (List Byte)
  | .form x => (p.sub? (listed x)).map fun sub => p.place op sub (operands x)
  | .unlisted sub => some [op, sub]

/-- The bytes of LD to memory after the sub-opcode (R157). -/
def StForm.operands : StForm → List Byte
  | .reg _ m s => ixByte s :: m.encode
  | .fr m f => ixByte f :: m.encode

/-- The form that lists LD to memory. -/
def StForm.listed : StForm → Form
  | .reg w m _ => .stReg w m.mode
  | .fr m _ => .stFr m.mode

/-- The bytes of LD to a float register after the sub-opcode (R158). -/
def FrForm.operands : FrForm → List Byte
  | .fr d s => [ixByte d, ixByte s]
  | .mem d m => ixByte d :: m.encode

/-- The form that lists LD to a float register. -/
def FrForm.listed : FrForm → Form
  | .fr _ _ => .frFr
  | .mem _ m => .frMem m.mode

/-- The bytes of ADD or SUB after the primary opcode (R100, R102). -/
def ArithForm.encode : ArithForm → List Byte
  | .imm d n => [0, ixByte d, n]
  | .reg d s => [1, ixByte d, ixByte s]
  | .mem d m => m.mode.sub :: ixByte d :: m.encode
  | .fr d f => [12, ixByte d, ixByte f]

/-- The byte of a PUSH32 or POP32 operand. -/
def Reg32.byte : Reg32 → Byte
  | .gen i => ixByte i
  | .fr f => ixByte f

/-- The bytes of an unconditional jump or call: the low 5 bits of the sub-opcode are written as zero
(R261, D34). -/
def encodeNnn (op : Byte) (nnn : Option (BitVec 3)) (a : Addr) : Option (List Byte) :=
  nnn.map fun v => op :: subOf v 0 :: bytesOf .w24 a

/-- The bytes of a conditional jump or call (R261). -/
def encodeCond (op : Byte) (cond : Option (BitVec 3)) (k : CondIx) (a : Addr) : Option (List Byte) :=
  cond.map fun v => op :: subOf v k :: bytesOf .w24 a

/-- The bytes of an instruction, `none` where the parameter or the listed encoding that its form
needs is not supplied. A byte whose value the spec leaves open is written as zero (R260, R273). -/
def encode (p : Params) : Instr → Option (List Byte)
  | .nop => some (0x00 :: if p.subopPresent? 0x00 = some true then [0] else [])
  | .ldRN d n => some [0x01, 0, ixByte d, n]
  | .ldRR d s => some [0x01, 1, ixByte d, ixByte s]
  | .ldRAbs d a => some (0x01 :: 2 :: ixByte d :: bytesOf .w24 a)
  | .ldRAbsImm d a o => some (0x01 :: 3 :: ixByte d :: (bytesOf .w24 a ++ bytesOf .w24 o))
  | .ldRAbsR8 d a q => some (0x01 :: 4 :: ixByte d :: (bytesOf .w24 a ++ [ixByte q]))
  | .ldRAbsR16 d a q => some (0x01 :: 5 :: ixByte d :: (bytesOf .w24 a ++ [ixByte q]))
  | .ldRAbsR24 d a q => some (0x01 :: 6 :: ixByte d :: (bytesOf .w24 a ++ [ixByte q]))
  | .ldRInd d b => some [0x01, 7, ixByte d, ixByte b]
  | .ldRIndImm d b o => some (0x01 :: 8 :: ixByte d :: ixByte b :: bytesOf .w24 o)
  | .ldRIndR8 d b q => some [0x01, 9, ixByte d, ixByte b, ixByte q]
  | .ldRIndR16 d b q => some [0x01, 10, ixByte d, ixByte b, ixByte q]
  | .ldRIndR24 d b q => some [0x01, 11, ixByte d, ixByte b, ixByte q]
  | .ldRFr d f => some [0x01, 12, ixByte d, ixByte f]
  | .ldRr f => f.encode p 0x01 LdForm.listed LdForm.operands
  | .ldRrr f => f.encode p 0x01 LdForm.listed LdForm.operands
  | .ldRrrr f => f.encode p 0x01 LdForm.listed LdForm.operands
  | .ldMem f => f.encode p 0x01 StForm.listed StForm.operands
  | .ldFr f => f.encode p 0x01 FrForm.listed FrForm.operands
  | .ldUndef b => some [0x01, b]
  | .ldRrrInd d b => p.subopRrrInd.map fun s => [0x01, s, ixByte d, ixByte b]
  | .ldAbsR s a => p.subopAbsR.map fun c => 0x01 :: c :: ixByte s :: bytesOf .w24 a
  | .addRN d n => some [0x02, 0, ixByte d, n]
  | .addR (.form x) => some (0x02 :: x.encode)
  | .addR (.unlisted b) => some [0x02, b]
  | .addUndef b => some [0x02, b]
  | .add16 b1 => some [0x02, b1]
  | .add24 b1 => some [0x02, b1]
  | .add32 b1 => some [0x02, b1]
  | .sub (.form x) => some (0x03 :: x.encode)
  | .sub (.unlisted b) => some [0x03, b]
  | .sub16 b1 => some [0x03, b1]
  | .sub24 b1 => some [0x03, b1]
  | .sub32 b1 => some [0x03, b1]
  | .subUndef b => some [0x03, b]
  | .div f => f.encode p 0x04 (fun x => .div x.w) (fun x => [ixByte x.d, ixByte x.s])
  | .mul b1 => some [0x05, b1]
  | .sl b1 => some [0x06, b1]
  | .sr b1 => some [0x07, b1]
  | .rl b1 => some [0x08, b1]
  | .rr b1 => some [0x09, b1]
  | .set b1 => some [0x0A, b1]
  | .res b1 => some [0x0B, b1]
  | .bit b1 => some [0x0C, b1]
  | .and b1 => some [0x0D, b1]
  | .and16 b1 => some [0x0D, b1]
  | .and24 b1 => some [0x0D, b1]
  | .and32 b1 => some [0x0D, b1]
  | .or b1 => some [0x0E, b1]
  | .or16 b1 => some [0x0E, b1]
  | .or24 b1 => some [0x0E, b1]
  | .or32 b1 => some [0x0E, b1]
  | .xor b1 => some [0x0F, b1]
  | .xor16 b1 => some [0x0F, b1]
  | .xor24 b1 => some [0x0F, b1]
  | .xor32 b1 => some [0x0F, b1]
  | .inv b1 => some [0x10, b1]
  | .ex v k => some [0x11, subOf v k]
  | .cp v k => some [0x12, subOf v k]
  | .inc b1 => some [0x13, b1]
  | .inc16 b1 => some [0x13, b1]
  | .inc24 b1 => some [0x13, b1]
  | .inc32 b1 => some [0x13, b1]
  | .dec b1 => some [0x14, b1]
  | .dec16 b1 => some [0x14, b1]
  | .dec24 b1 => some [0x14, b1]
  | .dec32 b1 => some [0x14, b1]
  | .callNnn a => encodeNnn 0x15 p.callNnn a
  | .callCond k a => encodeCond 0x15 p.callCond k a
  | .callOther v k => some [0x15, subOf v k]
  | .callrNnn a => encodeNnn 0x16 p.callrNnn a
  | .callrCond k a => encodeCond 0x16 p.callrCond k a
  | .callrOther v k => some [0x16, subOf v k]
  | .jpNnn a => encodeNnn 0x17 p.jpNnn a
  | .jpCond k a => encodeCond 0x17 p.jpCond k a
  | .jpOther v k => some [0x17, subOf v k]
  | .jrNnn a => encodeNnn 0x18 p.jrNnn a
  | .jrCond k a => encodeCond 0x18 p.jrCond k a
  | .jrOther v k => some [0x18, subOf v k]
  | .pop f => f.encode p 0x1A (fun _ => .pop .w8) (fun i => [ixByte i])
  | .pop16 f => f.encode p 0x1A (fun _ => .pop .w16) (fun i => [ixByte i])
  | .pop24 f => f.encode p 0x1A (fun _ => .pop .w24) (fun i => [ixByte i])
  | .pop32 f => f.encode p 0x1A Reg32.popForm (fun x => [x.byte])
  | .push f => f.encode p 0x1C (fun _ => .push .w8) (fun i => [ixByte i])
  | .push16 f => f.encode p 0x1C (fun _ => .push .w16) (fun i => [ixByte i])
  | .push24 f => f.encode p 0x1C (fun _ => .push .w24) (fun i => [ixByte i])
  | .push32 f => f.encode p 0x1C Reg32.pushForm (fun x => [x.byte])
  | .int b1 => some [0x1D, b1]
  | .rand b1 => some [0x1E, b1]
  | .min b1 => some [0x1F, b1]
  | .max b1 => some [0x20, b1]
  | .djnz b1 => some [0x21, b1]
  | .djnz16 b1 => some [0x21, b1]
  | .djnz24 b1 => some [0x21, b1]
  | .djnz32 b1 => some [0x21, b1]
  | .setf b1 => some [0x24, b1]
  | .resf b1 => some [0x25, b1]
  | .invf b1 => some [0x26, b1]
  | .ldf b1 => some [0x27, b1]
  | .regs b1 => some [0x28, b1]
  | .wait b1 => some [0x29, b1]
  | .vdl b1 => some [0x2A, b1]
  | .vcl b1 => some [0x2B, b1]
  | .find b1 => some [0x2C, b1]
  | .imply v k => some [0x30, subOf v k]
  | .imply16 v k => some [0x30, subOf v k]
  | .imply24 v k => some [0x30, subOf v k]
  | .imply32 v k => some [0x30, subOf v k]
  | .nand b1 => some [0x31, b1]
  | .nand16 b1 => some [0x31, b1]
  | .nand24 b1 => some [0x31, b1]
  | .nand32 b1 => some [0x31, b1]
  | .nor b1 => some [0x32, b1]
  | .nor16 b1 => some [0x32, b1]
  | .nor24 b1 => some [0x32, b1]
  | .nor32 b1 => some [0x32, b1]
  | .xnor b1 => some [0x33, b1]
  | .xnor16 b1 => some [0x33, b1]
  | .xnor24 b1 => some [0x33, b1]
  | .xnor32 b1 => some [0x33, b1]
  | .getbits b1 => some [0x38, b1]
  | .setbits b1 => some [0x39, b1]
  | .memf b1 => some [0x40, b1]
  | .memc b1 => some [0x41, b1]
  | .ldregs b1 => some [0x46, b1]
  | .stregs b1 => some [0x47, b1]
  | .sdiv f => f.encode p 0x5C (fun x => .sdiv x.w) (fun x => [ixByte x.d, ixByte x.s])
  | .smul b1 => some [0x5D, b1]
  | .scp b1 => some [0x5E, b1]
  | .fregs b1 => some [0x5F, b1]
  | .pow b1 => some [0x60, b1]
  | .sqr b1 => some [0x61, b1]
  | .cbr b1 => some [0x62, b1]
  | .isqr b1 => some [0x63, b1]
  | .isgn b1 => some [0x64, b1]
  | .sin b1 => some [0x66, b1]
  | .cos b1 => some [0x67, b1]
  | .tan b1 => some [0x68, b1]
  | .abs b1 => some [0x80, b1]
  | .round b1 => some [0x81, b1]
  | .floor b1 => some [0x82, b1]
  | .ceil b1 => some [0x83, b1]
  | .play b1 => some [0xA0, b1]
  | .setvar f => f.encode p 0xBE (fun x => .setvar x.k.kind x.v.kind) SetForm.encode
  | .getvar f => f.encode p 0xBF (fun x => .getvar x.k.kind) (fun x => ixByte x.d :: x.k.encode)
  | .rgb2hsl b1 => some [0xC0, b1]
  | .hsl2rgb b1 => some [0xC1, b1]
  | .rgb2hsb b1 => some [0xC2, b1]
  | .hsb2rgb b1 => some [0xC3, b1]
  | .debug b1 => some [0xFC, b1]
  | .brk b1 => some [0xFD, b1]
  | .retif f => f.encode p 0xFE (fun _ => .retif) (fun k => [ixByte k])
  | .ret => some (0xFF :: if p.subopPresent? 0xFF = some true then [0] else [])

/-! ## The machine that `State.reset` starts -/

/-- What is supplied at launch of the byte after the opcodes that R99 does not name: `SUBOP_PRESENT` for
NOP and RET, pattern 1 for POP, PUSH, DIV, SDIV, SETVAR and GETVAR, a packed byte for RETIF. DESIGN
CHOICE, log entry 37. -/
def launchSubops : List SubopRow :=
  [⟨0x00, .present⟩, ⟨0xFF, .present⟩, ⟨0x1A, .constant⟩, ⟨0x1C, .constant⟩, ⟨0x04, .constant⟩,
   ⟨0x5C, .constant⟩, ⟨0xBE, .constant⟩, ⟨0xBF, .constant⟩, ⟨0xFE, .packed⟩]

/-- The encodings given from elsewhere at launch (log entries 2 and 3): PUSH and POP of the four widths,
DIV and SDIV of the four widths, SETVAR and GETVAR with register or immediate index, RETIF; none for LD, of
whose sub-opcodes 13 to 243 R101 gives no individual value. The values are each opcode's own, not the
numbering that R100 says the pattern 1 families share (log entry 40). DESIGN CHOICE. -/
def launchForms : List FormRow :=
  [⟨0, .push .w8⟩, ⟨1, .push .w16⟩, ⟨2, .push .w24⟩, ⟨3, .push .w32⟩, ⟨4, .pushFr⟩,
   ⟨0, .pop .w8⟩, ⟨1, .pop .w16⟩, ⟨2, .pop .w24⟩, ⟨3, .pop .w32⟩, ⟨4, .popFr⟩,
   ⟨0, .div .w8⟩, ⟨1, .div .w16⟩, ⟨2, .div .w24⟩, ⟨3, .div .w32⟩,
   ⟨0, .sdiv .w8⟩, ⟨1, .sdiv .w16⟩, ⟨2, .sdiv .w24⟩, ⟨3, .sdiv .w32⟩,
   ⟨0, .setvar .imm .imm⟩, ⟨1, .setvar .imm .reg⟩,
   ⟨2, .setvar .reg .imm⟩, ⟨3, .setvar .reg .reg⟩,
   ⟨0, .getvar .imm⟩, ⟨1, .getvar .reg⟩, ⟨0, .retif⟩]

/-- The open parameters (R6) of the machine that `State.reset` starts. DESIGN CHOICE, log entries 1
to 4, 11 to 13 and 37: the spec supplies none of them. Open forms are refused, as the spec says (log
entries 5 to 7). -/
def launchParams : Params where
  runAddress := 0
  subops := launchSubops
  subopRrrInd := some 36
  subopAbsR := some 58
  callNnn := some 0
  callCond := some 1
  callrNnn := some 0
  callrCond := some 1
  jpNnn := some 0
  jpCond := some 1
  jrNnn := some 0
  jrCond := some 1
  offsetSigned := some Config.offsetRegSigned
  errIdDiv0 := Config.errIdDiv0
  optIn := true
  runOpen := false
  elsewhere := launchForms
  suffixes := []

/-- Byte `k` of an instruction whose bits the opcode table numbers from the least significant bit of
its first byte: byte `k` is bits `8 k + 7` to `8 k`; every bit from `nbits` on is zero. -/
def tableByte (nbits w k : Nat) : Byte := BitVec.ofNat 8 ((w % 2 ^ nbits) >>> (8 * k))

/-- The instruction the decoder reads from a word of the opcode table, with the launch
parameters. -/
def decodeTableWord (nbits w : Nat) : Option Instr :=
  match decodeAt launchParams (tableByte nbits w) with
  | .ok i => some i
  | .error _ => none

end Sys2Proof
end

