-- ==== Sys2Proof/Machine/State.lean ====
section
/-! DEFINITION. The state of the machine (10_state.md), the reasons a step can stop (60_exceptions.md
R421), and the state right after launch (70_reset_and_hazards.md R440). -/

namespace Sys2Proof.Machine

/-- One of the machine's memories, or a register file: the cells that do not read as zero, by rising
key (`Memory.wf`, Machine/Ops.lean). A cell that is not listed reads as zero (log entries 9, 10). -/
abbrev Memory (w : Nat) := List (Nat × BitVec w)

/-- The spec's own fault marks (R10, R421), none of them an event of the machine: each says that the
spec gives the situation no meaning, and stops the run. All are safe (no claim about a next state can
be proved of such a step). -/
inductive Fault where
  /-- Raised by `step`: the primary opcode is one of the 178 unassigned values (R94, D4). Safe. -/
  | unassignedOpcode (op : Byte)
  /-- Raised by LD, ADD, SUB with a sub-opcode of 244..255 (R109, R158, R170, D27). Safe. -/
  | undefinedSubopcode (sub : Byte)
  /-- Raised by every meaning with a general register operand: an index of 26..31 (R23, D3). Safe. -/
  | badRegisterIndex
  /-- Raised by every meaning with a float register operand: an index above 15 (R24, D3). Safe. -/
  | badFloatRegisterIndex
  /-- Raised by the conditional jumps, calls and RETIF: a condition index of 16..31 (R30, D3). Safe. -/
  | badConditionIndex
  /-- Raised by a multi-byte read, write or operand fetch that would pass 0xFFFFFF (R65, D8). Safe. -/
  | accessCrossesTop
  /-- Raised by an 8- or 16-bit register offset whose top bit is set when `OFFSET_REG_SIGNED` is not
  supplied (R84, D11). Safe. -/
  | offsetSignUnknown
  /-- Raised by CALL and CALLR with all 1,048,576 entries in use (R270, R409, D13). Safe. -/
  | callStackOverflow
  /-- Raised by error entry when `HMEM[65535]` is above 0xFFFFFF (R404, D15). Safe. -/
  | badHandlerAddress
  /-- Raised by `step` on a stopped machine, which takes no further step (R37, R408, I26). Safe. -/
  | stopped
deriving DecidableEq, Repr

/-- Why a step has no meaning. All are safe. -/
inductive Refusal where
  /-- Raised by no meaning: an arm of `exec` whose instruction has none yet. Safe. -/
  | notModelled (mnemonic : String)
  /-- `refuse(unspecified_instruction)` (R10, R109, R421, D5): the spec gives the instruction, or the
  form, no encoding or no effect. Raised by the meaning of the instruction named. Safe. -/
  | unspecifiedInstruction (mnemonic : String)
  /-- Raised by GETVAR and SETVAR of an HMEM entry 0..65533 where the model does not run open forms
  (R34, R68, R329, R330, D23). Safe. -/
  | systemVariable
  /-- Raised by GETVAR and SETVAR of an index above 65,535 (R329: "not in the source"). Safe. -/
  | hmemIndexAboveRange
  /-- Raised by `State.launch`: a block outside 0x000000..0xFFFFFF, or two that overlap (R114, D28).
  Safe. -/
  | badLoadImage
deriving DecidableEq, Repr

/-- Everything the spec gives the machine, and the model's own `draws` and `params`. -/
structure State where
  /-- The general registers of all banks; register `i` of bank `b` has key `26 b + i` (R20, R21). -/
  regs : Memory 8
  /-- `RBANK` (R21). -/
  rbank : Byte
  /-- The float registers of all banks; register `i` of bank `b` has key `16 b + i` (R24, R25). -/
  fregs : Memory 32
  /-- `FBANK` (R25). -/
  fbank : Byte
  /-- The instruction pointer (R26). -/
  ipo : Addr
  /-- The byte offset of the next free byte of RSRAM (R27). -/
  spr : BitVec 24
  /-- The index of the next free entry of CSRAM (R28). -/
  spc : BitVec 24
  /-- The flag byte: bit `k` is flag `k` (R29). -/
  flags : Byte
  /-- RAM, bytes 0 to 0x1000002 (R31). -/
  ram : Memory 8
  /-- RSRAM, the register stack memory (R32). -/
  rsram : Memory 8
  /-- CSRAM, the call stack memory: one 24-bit address an entry (R33). -/
  csram : Memory 24
  /-- HMEM (R34). -/
  hmem : Memory 32
  /-- `RUN` (R37). -/
  running : Bool
  /-- The model's own: how many values have been drawn (R10; log entry 8). -/
  draws : Nat
  /-- The model's own: the machine's parameters (R6), written by no step (log entry 1). -/
  params : Params
deriving DecidableEq, Repr

/-- The machine right after launch with no block loaded (R41, R42, R440): IPO at `RUN_ADDRESS`
(log entry 11), SPR and SPC 0, running; what the spec leaves unspecified is zero or unlisted
(DESIGN CHOICE, log entries 9, 10). -/
def State.reset : State where
  regs := []
  rbank := 0
  fregs := []
  fbank := 0
  ipo := launchParams.runAddress
  spr := 0
  spc := 0
  flags := 0
  ram := []
  rsram := []
  csram := []
  hmem := []
  running := true
  draws := 0
  params := launchParams

end Sys2Proof.Machine
end

