-- ==== Sys2Proof/Machine/Ops.lean ====
section
/-! DEFINITION. The named operations every meaning is built from: the memories (20_memory.md), the
registers (10_state.md), the fetch primitives (30_encoding.md R92), the draws (00_scope.md R10), the
error entry and the stop (60_exceptions.md), the call stack (44_control.md) and the register stack
(45_stack_regs.md). -/

namespace Sys2Proof.Machine

/-- What a step or a meaning answers. -/
abbrev Result := Host.Outcome State Fault Refusal

/-! ## Sequencing -/

/-- Go on with the value, or stop with the fault. -/
def withOk {α : Type} (e : Except Fault α) (k : α → Result) : Result :=
  match e with
  | .ok a => k a
  | .error f => .fault f

/-- Go on if every index names a general register (R23; the check comes before any access, R410). -/
def requireRegs (is : List RegIx) (k : Result) : Result :=
  if is.all regOk then k else .fault .badRegisterIndex

/-- Go on if every index names a float register (R24). -/
def requireFregs (fs : List FRegIx) (k : Result) : Result :=
  if fs.all fregOk then k else .fault .badFloatRegisterIndex

/-! ## Memories as data -/

/-- One cell: zero where the cell is not listed. -/
def Memory.read {w : Nat} (m : Memory w) (a : Nat) : BitVec w :=
  match m with
  | [] => 0
  | c :: r => if c.1 = a then c.2 else Memory.read r a

/-- The memory with the cell unlisted. -/
def Memory.erase {w : Nat} (m : Memory w) (a : Nat) : Memory w :=
  match m with
  | [] => []
  | c :: r => if c.1 = a then Memory.erase r a else c :: Memory.erase r a

/-- The memory with a new cell put before the first greater key. -/
def Memory.insert {w : Nat} (m : Memory w) (a : Nat) (v : BitVec w) : Memory w :=
  match m with
  | [] => [(a, v)]
  | c :: r => if a < c.1 then (a, v) :: c :: r else c :: Memory.insert r a v

/-- The memory with the cell holding `v`; a cell that holds zero is not listed. -/
def Memory.write {w : Nat} (m : Memory w) (a : Nat) (v : BitVec w) : Memory w :=
  if v = 0 then Memory.erase m a else Memory.insert (Memory.erase m a) a v

/-- The first `n` cells of a sequence of keys written with a sequence of bytes, in order. -/
def Memory.writeSeq (m : Memory 8) (key : Nat → Nat) (b : Nat → Byte) : Nat → Memory 8
  | 0 => m
  | n + 1 => Memory.write (Memory.writeSeq m key b n) (key n) (b n)

/-- Keys rise strictly from `lo`, stay below `size`, and no listed cell is zero. -/
def Memory.wfFrom {w : Nat} (size lo : Nat) : Memory w → Bool
  | [] => true
  | c :: r => lo ≤ c.1 && c.1 < size && c.2 != 0 && Memory.wfFrom size (c.1 + 1) r

/-- The canonical form of a memory of `size` cells. -/
def Memory.wf {w : Nat} (size : Nat) (m : Memory w) : Bool := Memory.wfFrom size 0 m

/-! ## Registers (R22 to R25) -/

/-- The key of the `j`-th register of a composite that begins with `i`, in a bank: after register 25
comes register 0 (R22). -/
def regKey (bank : Byte) (i : RegIx) (j : Nat) : Nat :=
  Config.nRegs * bank.toNat + (i.toNat + j) % Config.nRegs

/-- `x[i]`, `x16[i]`, `x24[i]`, `x32[i]`: the first-named register is the most significant byte
(R22, R23, D2; log entry 15). -/
def State.readReg (s : State) (w : Width) (i : RegIx) : BitVec w.bits :=
  be w fun j => Memory.read s.regs (regKey s.rbank i j)

/-- `x[i] <- v` and so on, in the current bank (R22, R23). -/
def State.writeReg (s : State) (w : Width) (i : RegIx) (v : BitVec w.bits) : State :=
  { s with regs := Memory.writeSeq s.regs (regKey s.rbank i) (byteOf w v) w.bytes }

/-- The key of a float register in a bank (R24, R25). -/
def fregKey (bank : Byte) (f : FRegIx) : Nat := Config.nFregs * bank.toNat + f.toNat

/-- `f[i]` (R24). -/
def State.readF (s : State) (f : FRegIx) : Word32 := Memory.read s.fregs (fregKey s.fbank f)

/-- `f[i] <- v` (R24). -/
def State.writeF (s : State) (f : FRegIx) (v : Word32) : State :=
  { s with fregs := Memory.write s.fregs (fregKey s.fbank f) v }

/-! ## RAM, RSRAM, CSRAM, HMEM (R62, R63, R76 to R78) -/

/-- `MemRead(a, n)`, a fault where the access would pass 0xFFFFFF (R62, R65). -/
def State.memRead (s : State) (w : Width) (a : Addr) : Except Fault (BitVec w.bits) :=
  if a.toNat + w.bytes ≤ Config.addrWrap then
    .ok (be w fun j => Memory.read s.ram (a.toNat + j))
  else .error .accessCrossesTop

/-- `MemWrite(a, n, v)`, a fault where the access would pass 0xFFFFFF (R63, R65). -/
def State.memWrite (s : State) (w : Width) (a : Addr) (v : BitVec w.bits) : Except Fault State :=
  if a.toNat + w.bytes ≤ Config.addrWrap then
    .ok { s with ram := Memory.writeSeq s.ram (a.toNat + ·) (byteOf w v) w.bytes }
  else .error .accessCrossesTop

/-- `RsRead(off, n)` (R76). -/
def State.rsRead (s : State) (w : Width) (off : Nat) : BitVec w.bits :=
  be w fun j => Memory.read s.rsram (off + j)

/-- `RsWrite(off, n, v)` (R76). -/
def State.rsWrite (s : State) (w : Width) (off : Nat) (v : BitVec w.bits) : State :=
  { s with rsram := Memory.writeSeq s.rsram (off + ·) (byteOf w v) w.bytes }

/-- `CsRead(k)` (R77). -/
def State.csRead (s : State) (k : Nat) : Addr := Memory.read s.csram k

/-- `CsWrite(k, a)` (R77). -/
def State.csWrite (s : State) (k : Nat) (a : Addr) : State :=
  { s with csram := Memory.write s.csram k a }

/-- `HMEM[k]` (R78). -/
def State.hmemRead (s : State) (k : Nat) : Word32 := Memory.read s.hmem k

/-- `HMEM[k] <- v` (R78). -/
def State.hmemWrite (s : State) (k : Nat) (v : Word32) : State :=
  { s with hmem := Memory.write s.hmem k v }

/-! ## IPO and the fetch primitives (R26, R64, R92) -/

/-- IPO moved on by `n` bytes, modulo 2^24 (R26, R64, D9). -/
def State.advance (s : State) (n : Nat) : State := { s with ipo := s.ipo + BitVec.ofNat 24 n }

/-- `IPO <- a` (R9). -/
def State.jump (s : State) (a : Addr) : State := { s with ipo := a }

/-- `Fetch8()`, `Fetch16()`, `Fetch24()`, `Fetch32()` (R92): the big-endian value at IPO, and the
state with IPO after it. -/
def State.fetch (s : State) (w : Width) : Except Fault (BitVec w.bits × State) :=
  (s.memRead w s.ipo).map fun v => (v, s.advance w.bytes)

/-- `FetchS8()` and so on (R92): the same bytes as a two's-complement number (R8, R69). -/
def State.fetchSigned (s : State) (w : Width) : Except Fault (Int × State) :=
  (s.fetch w).map fun x => (x.1.toInt, x.2)

/-- Byte `k` of the instruction at IPO, by separate one-byte fetches, which may pass from 0xFFFFFF
to 0x000000 (R65, R92). -/
def State.instrByte (s : State) (k : Nat) : Byte :=
  Memory.read s.ram (s.ipo + BitVec.ofNat 24 k).toNat

/-- Whether a multi-byte operand fetch that begins `x.1` bytes into the instruction succeeds. -/
def State.canFetch (s : State) (x : Nat × Width) : Bool :=
  ((s.advance x.1).fetch x.2).isOk

/-! ## Draws (R10, R29, D6) -/

/-- The next draw: an arbitrary value. -/
def State.drawn (s : State) : Word32 := Config.freeWord s.draws

/-- The state in which that draw has been made. -/
def State.drawNext (s : State) : State := { s with draws := s.draws + 1 }

/-- `F <- draw(8)`: after every instruction but NOP all eight flags are arbitrary (R29, D6). -/
def State.drawFlags (s : State) : State :=
  { s with flags := s.drawn.setWidth 8, draws := s.draws + 1 }

/-- A general register operand holds an arbitrary value. -/
def State.drawReg (s : State) (w : Width) (i : RegIx) : State :=
  (s.writeReg w i (s.drawn.setWidth w.bits)).drawNext

/-- A float register holds an arbitrary value. -/
def State.drawF (s : State) (f : FRegIx) : State := (s.writeF f s.drawn).drawNext

/-! ## Taking an error, and the stop (R400 to R411) -/

/-- The causes that enter the error handler (R401). -/
inductive ErrorKind where
  | rsOverflow
  | rsUnderflow
  | divZero
deriving DecidableEq, Repr

/-- What error entry writes to `HMEM[ERROR_ID]`: `ERR_ID_DIV0` for a zero divisor, any value for the
two register stack errors (R404, R406, D16, D17). -/
def State.writeErrorId (s : State) (kind : ErrorKind) : State :=
  match kind with
  | .divZero => s.hmemWrite Config.errorId s.params.errIdDiv0
  | .rsOverflow | .rsUnderflow => (s.hmemWrite Config.errorId s.drawn).drawNext

/-- `raise Error(kind)`: error entry (R404). IPO goes to the handler's address in
`HMEM[ERROR_HANDLER_ADDRESS]`, a fault if that is above 0xFFFFFF; the id is written; the flags are
drawn; nothing is saved, and no register, stack or RAM byte changes. There is no return from an
error (R411). -/
def State.raiseError (s : State) (kind : ErrorKind) : Except Fault State :=
  if (s.hmemRead Config.errorHandlerAddress).toNat ≤ Config.max24Bit then
    .ok ((s.writeErrorId kind).jump ((s.hmemRead Config.errorHandlerAddress).setWidth 24)).drawFlags
  else .error .badHandlerAddress

/-- `stop` (R408): RUN becomes false, nothing else changes. -/
def State.stop (s : State) : State := { s with running := false }

/-! ## The call stack (R270, R271) -/

/-- `CallPush(ret)` (R270): the fault for a full call stack is the spec's choice (D13). -/
def State.callPush (s : State) (ret : Addr) : Except Fault State :=
  if s.spc.toNat < Config.csramEntries then
    .ok { s.csWrite s.spc.toNat ret with spc := s.spc + 1 }
  else .error .callStackOverflow

/-- `RetPop()` (R271): the stop when SPC is 0, with every other piece of state as it was (R273);
otherwise SPC goes down by one and IPO to the entry it then points at, and the flags are drawn. -/
def State.retPop (s : State) : State :=
  if s.spc = 0 then s.stop
  else ({ s with spc := s.spc - 1 }.jump (s.csRead (s.spc - 1).toNat)).drawFlags

/-! ## The register stack (R281, R282) -/

/-- Step 1 of PUSH: `SPR + data_size >= RSRAM.Size`, an ordinary integer sum (R281, R402). -/
def State.rsOverflows (s : State) (w : Width) : Bool :=
  Config.rsramBytes ≤ s.spr.toNat + w.bytes

/-- Step 1 of POP: `SPR < data_size` (R282, R403). -/
def State.rsUnderflows (s : State) (w : Width) : Bool := s.spr.toNat < w.bytes

/-- Steps 3 and 4 of PUSH (R281). -/
def State.rsPushed (s : State) (w : Width) (v : BitVec w.bits) : State :=
  { s.rsWrite w s.spr.toNat v with spr := s.spr + BitVec.ofNat 24 w.bytes }

/-- Step 3 of POP (R282). -/
def State.rsDropped (s : State) (w : Width) : State :=
  { s with spr := s.spr - BitVec.ofNat 24 w.bytes }

/-- Step 4 of POP: the value at the new SPR; the bytes stay in RSRAM (R282). -/
def State.rsTop (s : State) (w : Width) : BitVec w.bits :=
  s.rsRead w (s.spr - BitVec.ofNat 24 w.bytes).toNat

/-- `RsPush(n, v)` as a whole instruction (R281): the error, or the push and the flags drawn. -/
def State.rsPush (s : State) (w : Width) (v : BitVec w.bits) : Result :=
  if s.rsOverflows w then withOk (s.raiseError .rsOverflow) .next
  else .next (s.rsPushed w v).drawFlags

/-- `RsPop(n)` as a whole instruction (R282): `put` writes the popped value to the destination, and
`any` an arbitrary one, which is what the destination holds after an underflow (R403, D16; log
entry 23). -/
def State.rsPop (s : State) (w : Width) (put : BitVec w.bits → State → State) (any : State → State) :
    Result :=
  if s.rsUnderflows w then withOk (s.raiseError .rsUnderflow) fun t => .next (any t)
  else .next (put (s.rsTop w) (s.rsDropped w)).drawFlags

/-! ## Instructions the spec does not specify -/

/-- `refuse(unspecified_instruction)` (R10, R109): the spec gives no encoding or no effect. -/
def unspecified (mnemonic : String) : Result := .refused (.unspecifiedInstruction mnemonic)

end Sys2Proof.Machine
end

