-- ==== Sys2Proof/Machine/Operands.lean ====
section
/-! DEFINITION. Operand forms: the effective address of each memory addressing mode (20_memory.md
R80 to R84) and the value of a 32-bit source operand (47_system_block_video.md R329, R330). Sums are
modulo 2^24 (R64, D10). -/

namespace Sys2Proof.Machine

/-- `ext(v)` of R84: zero-extension while the top bit is clear; with the top bit set, what
`OFFSET_REG_SIGNED` says, and a fault when it is not supplied (D11; log entry 12). -/
def extOffset {n : Nat} (offsetSigned : Option Bool) (v : BitVec n) : Except Fault Addr :=
  if v.msb then
    match offsetSigned with
    | some true => .ok (v.signExtend 24)
    | some false => .ok (v.setWidth 24)
    | none => .error .offsetSignUnknown
  else .ok (v.setWidth 24)

/-- `EA_abs(a)` (R81). -/
def eaAbs (a : Addr) : Addr := a

/-- `EA_ind(b)` (R81). -/
def State.eaInd (s : State) (b : RegIx) : Addr := s.readReg .w24 b

/-- `EA_abs_imm(a, o)` (R82). -/
def eaAbsImm (a o : Addr) : Addr := a + o

/-- `EA_ind_imm(b, o)` (R82). -/
def State.eaIndImm (s : State) (b : RegIx) (o : Addr) : Addr := s.readReg .w24 b + o

/-- `EA_abs_r24(a, q)` (R83). -/
def State.eaAbsR24 (s : State) (a : Addr) (q : RegIx) : Addr := a + s.readReg .w24 q

/-- `EA_ind_r24(b, q)` (R83). -/
def State.eaIndR24 (s : State) (b q : RegIx) : Addr := s.readReg .w24 b + s.readReg .w24 q

/-- `EA_abs_r8(a, q)` (R84). -/
def State.eaAbsR8 (s : State) (a : Addr) (q : RegIx) : Except Fault Addr :=
  (extOffset s.params.offsetSigned (s.readReg .w8 q)).map (a + ·)

/-- `EA_abs_r16(a, q)` (R84). -/
def State.eaAbsR16 (s : State) (a : Addr) (q : RegIx) : Except Fault Addr :=
  (extOffset s.params.offsetSigned (s.readReg .w16 q)).map (a + ·)

/-- `EA_ind_r8(b, q)` (R84). -/
def State.eaIndR8 (s : State) (b q : RegIx) : Except Fault Addr :=
  (extOffset s.params.offsetSigned (s.readReg .w8 q)).map (s.readReg .w24 b + ·)

/-- `EA_ind_r16(b, q)` (R84). -/
def State.eaIndR16 (s : State) (b q : RegIx) : Except Fault Addr :=
  (extOffset s.params.offsetSigned (s.readReg .w16 q)).map (s.readReg .w24 b + ·)

/-- The effective address of a memory operand (R80 to R84). No mode changes a register (R80). -/
def State.ea (s : State) : MemOp → Except Fault Addr
  | .abs a => .ok (eaAbs a)
  | .absImm a o => .ok (eaAbsImm a o)
  | .absR8 a q => s.eaAbsR8 a q
  | .absR16 a q => s.eaAbsR16 a q
  | .absR24 a q => .ok (s.eaAbsR24 a q)
  | .ind b => .ok (s.eaInd b)
  | .indImm b o => .ok (s.eaIndImm b o)
  | .indR8 b q => s.eaIndR8 b q
  | .indR16 b q => s.eaIndR16 b q
  | .indR24 b q => .ok (s.eaIndR24 b q)

/-- Go on with the value that a memory operand of the width holds (R62, R80). -/
def State.withLoad (s : State) (w : Width) (m : MemOp) (k : BitVec w.bits → Result) : Result :=
  withOk (s.ea m) fun a => withOk (s.memRead w a) k

/-- Store to a memory operand of the width (R63, R80), then draw the flags (D6). -/
def State.storeTo (s : State) (w : Width) (m : MemOp) (v : BitVec w.bits) : Result :=
  withOk (s.ea m) fun a => withOk (s.memWrite w a v) fun t => .next t.drawFlags

/-- The value of a 32-bit source operand. -/
def State.src32 (s : State) : Src32 → Word32
  | .imm v => v
  | .reg i => s.readReg .w32 i

end Sys2Proof.Machine
end

