-- ==== Sys2Proof/Machine/Arith.lean ====
section
/-! DEFINITION. ADD, SUB, DIV, MUL, INC, DEC, RAND, MIN, MAX, SDIV, SMUL (41_arithmetic.md). -/

namespace Sys2Proof.Machine

/-! ## Shared: 8-bit addition and subtraction -/

/-- ADD and SUB with an `_r_*` form (R170, R174): `x[d] <- op x[d] src`, with `src` the byte that LD
would load; then the flags are drawn (D6). Sub-opcode 12, a float register, is refused (R170). -/
def arithForm (mnemonic : String) (op : Byte → Byte → Byte) (x : ArithForm) (s : State) : Result :=
  match x with
  | .imm d n => requireRegs [d] (.next (s.writeReg .w8 d (op (s.readReg .w8 d) n)).drawFlags)
  | .reg d r =>
    requireRegs [d, r]
      (.next (s.writeReg .w8 d (op (s.readReg .w8 d) (s.readReg .w8 r))).drawFlags)
  | .mem d m =>
    requireRegs (d :: m.regs) (s.withLoad .w8 m fun v =>
      .next (s.writeReg .w8 d (op (s.readReg .w8 d) v)).drawFlags)
  | .fr _ _ => unspecified mnemonic

/-- An inferred form of ADD or SUB: it runs where the model opts in, and is refused where it does not
(R170, R174, D5; log entry 4). -/
def inferredArith (mnemonic : String) (op : Byte → Byte → Byte) (f : Given ArithForm) (s : State) :
    Result :=
  match f with
  | .form x => if s.params.optIn then arithForm mnemonic op x s else unspecified mnemonic
  | .unlisted _ => unspecified mnemonic

/-- Integer division (R178, R191, R405): a zero divisor raises the error, and the destination then
holds any value (D16). Otherwise the destination holds a quotient that the source does not state, a
draw, or the instruction is refused where the model does not run open forms (log entry 6). -/
def divide (mnemonic : String) (f : Given DivForm) (s : State) : Result :=
  match f with
  | .form x =>
    requireRegs [x.d, x.s]
      (if s.readReg x.w x.s = 0 then
        withOk (s.raiseError .divZero) fun t => .next (t.drawReg x.w x.d)
      else if s.params.runOpen then .next (s.drawReg x.w x.d).drawFlags
      else unspecified mnemonic)
  | .unlisted _ => unspecified mnemonic

/-! ## ADD, SUB, DIV, SDIV -/

/-- `ADD r, n` (R170): the low 8 bits of the sum (D7; log entry 16). -/
def execAddRN (d : RegIx) (n : Byte) (s : State) : Result :=
  requireRegs [d] (.next (s.writeReg .w8 d (s.readReg .w8 d + n)).drawFlags)

/-- ADD with a sub-opcode of 1..243 (R170): 1 to 11 are inferred forms, 12 to 243 are refused. -/
def execAddR (f : Given ArithForm) (s : State) : Result :=
  inferredArith "ADD__sub-opcode_1-243" (· + ·) f s

/-- ADD with a sub-opcode of 244..255 (R109, R170). -/
def execAddUndef (sub : Byte) (_s : State) : Result := .fault (.undefinedSubopcode sub)

/-- `SUB` (R174): `x[d] <- (x[d] - src) mod 2^8`; sub-opcodes 0 to 11 are inferred forms. -/
def execSub (f : Given ArithForm) (s : State) : Result := inferredArith "SUB" (· - ·) f s

/-- SUB with a sub-opcode of 244..255 (R109). -/
def execSubUndef (sub : Byte) (_s : State) : Result := .fault (.undefinedSubopcode sub)

/-- `DIV` (R178). -/
def execDiv (f : Given DivForm) (s : State) : Result := divide "DIV" f s

/-- `SDIV` (R191). -/
def execSdiv (f : Given DivForm) (s : State) : Result := divide "SDIV" f s

/-! ## Instructions the spec gives no effect (R109, D5) -/

/-- `ADD16` (R171): "Pseudocode: none can be given". -/
def execAdd16 (_b1 : Byte) (_s : State) : Result := unspecified "ADD16"

/-- `ADD24` (R172): "Pseudocode: none can be given". -/
def execAdd24 (_b1 : Byte) (_s : State) : Result := unspecified "ADD24"

/-- `ADD32` (R173): "Pseudocode: none can be given". -/
def execAdd32 (_b1 : Byte) (_s : State) : Result := unspecified "ADD32"

/-- `SUB16` (R175): "Pseudocode: none can be given". -/
def execSub16 (_b1 : Byte) (_s : State) : Result := unspecified "SUB16"

/-- `SUB24` (R176): "Pseudocode: none can be given". -/
def execSub24 (_b1 : Byte) (_s : State) : Result := unspecified "SUB24"

/-- `SUB32` (R177): "Pseudocode: none can be given". -/
def execSub32 (_b1 : Byte) (_s : State) : Result := unspecified "SUB32"

/-- `MUL` (R179): "Pseudocode: none can be given". -/
def execMul (_b1 : Byte) (_s : State) : Result := unspecified "MUL"

/-- `INC` (R180): "Pseudocode: none can be given". -/
def execInc (_b1 : Byte) (_s : State) : Result := unspecified "INC"

/-- `INC16` (R181): "Pseudocode: none can be given". -/
def execInc16 (_b1 : Byte) (_s : State) : Result := unspecified "INC16"

/-- `INC24` (R182): "Pseudocode: none can be given". -/
def execInc24 (_b1 : Byte) (_s : State) : Result := unspecified "INC24"

/-- `INC32` (R183): "Pseudocode: none can be given". -/
def execInc32 (_b1 : Byte) (_s : State) : Result := unspecified "INC32"

/-- `DEC` (R184): "Pseudocode: none can be given". -/
def execDec (_b1 : Byte) (_s : State) : Result := unspecified "DEC"

/-- `DEC16` (R185): "Pseudocode: none can be given". -/
def execDec16 (_b1 : Byte) (_s : State) : Result := unspecified "DEC16"

/-- `DEC24` (R186): "Pseudocode: none can be given". -/
def execDec24 (_b1 : Byte) (_s : State) : Result := unspecified "DEC24"

/-- `DEC32` (R187): "Pseudocode: none can be given". -/
def execDec32 (_b1 : Byte) (_s : State) : Result := unspecified "DEC32"

/-- `RAND` (R188): "Pseudocode: none can be given". -/
def execRand (_b1 : Byte) (_s : State) : Result := unspecified "RAND"

/-- `MIN` (R189): "Pseudocode: none can be given". -/
def execMin (_b1 : Byte) (_s : State) : Result := unspecified "MIN"

/-- `MAX` (R190): "Pseudocode: none can be given". -/
def execMax (_b1 : Byte) (_s : State) : Result := unspecified "MAX"

/-- `SMUL` (R192): "Pseudocode: none can be given". -/
def execSmul (_b1 : Byte) (_s : State) : Result := unspecified "SMUL"

end Sys2Proof.Machine
end

