-- ==== Sys2Proof/Machine/Compare.lean ====
section
/-! DEFINITION. EX, CP, SCP, SETF, RESF, INVF, LDF (43_compare_exchange_flags.md R250 to R257): no effect is
stated for any of them. -/

namespace Sys2Proof.Machine

/-! ## Instructions the spec gives no effect (R109, D5) -/

/-- `EX` (R251): "Pseudocode: none can be given". -/
def execEx (_v : BitVec 3) (_k : BitVec 5) (_s : State) : Result := unspecified "EX"

/-- `CP` (R252): "Pseudocode: none can be given". -/
def execCp (_v : BitVec 3) (_k : BitVec 5) (_s : State) : Result := unspecified "CP"

/-- `SETF` (R254): "Pseudocode: none can be given". -/
def execSetf (_b1 : Byte) (_s : State) : Result := unspecified "SETF"

/-- `RESF` (R255): "Pseudocode: none can be given". -/
def execResf (_b1 : Byte) (_s : State) : Result := unspecified "RESF"

/-- `INVF` (R256): "Pseudocode: none can be given". -/
def execInvf (_b1 : Byte) (_s : State) : Result := unspecified "INVF"

/-- `LDF` (R257): "Pseudocode: none can be given". -/
def execLdf (_b1 : Byte) (_s : State) : Result := unspecified "LDF"

/-- `SCP` (R253): "Pseudocode: none can be given". -/
def execScp (_b1 : Byte) (_s : State) : Result := unspecified "SCP"

end Sys2Proof.Machine
end

