-- ==== Sys2Proof/Machine/Flags.lean ====
section
/-! DEFINITION. The flags and the condition index (10_state.md R29, R30). No instruction of the spec
gives a flag a definite value: after every instruction but NOP they are drawn
(`State.drawFlags`, R29, D6). -/

namespace Sys2Proof.Machine

/-- The eight flags by name (R29). -/
inductive Flag where
  /-- Zero / Not Zero -/
  | z
  /-- Carry / No Carry -/
  | c
  /-- Sign Negative / Sign Positive -/
  | sn
  /-- Overflow / No Overflow -/
  | ov
  /-- Parity Odd / Parity Even -/
  | po
  /-- Equal / Not Equal -/
  | eq
  /-- Greater Than / Less Than or Equal -/
  | gt
  /-- Less Than / Greater Than or Equal -/
  | lt
deriving DecidableEq, Repr

/-- The storage index of a flag: its bit of the flag byte (R29). -/
def Flag.index : Flag → Nat
  | .z => 0
  | .c => 1
  | .sn => 2
  | .ov => 3
  | .po => 4
  | .eq => 5
  | .gt => 6
  | .lt => 7

/-- `F[k]` (R29). -/
def State.flag (s : State) (k : Nat) : Bool := s.flags.getLsbD k

/-- `cond(c)` (R30): 0..7 test a flag false, 8..15 test it true, 16..31 are a fault (D3). -/
def State.cond (s : State) (c : CondIx) : Except Fault Bool :=
  if c.toNat < 8 then .ok (!s.flag c.toNat)
  else if c.toNat < 16 then .ok (s.flag (c.toNat - 8))
  else .error .badConditionIndex

/-- Go on with the truth of a condition. -/
def State.withCond (s : State) (c : CondIx) (k : Bool → Result) : Result := withOk (s.cond c) k

end Sys2Proof.Machine
end

