-- ==== Sys2Proof/Machine/Control.lean ====
section
/-! DEFINITION. NOP, CALL, CALLR, JP, JR, DJNZ, RETIF, RET (44_control.md). A meaning runs with IPO already
after the instruction (10_state.md R26). -/

namespace Sys2Proof.Machine

/-! ## Shared: jumps and calls (R261) -/

/-- `IPO <- a`, then the flags are drawn (R261, D6). -/
def jumpTo (a : Addr) (s : State) : Result := .next (s.jump a).drawFlags

/-- `CallPush(IPO); IPO <- a` (R262, R270, D31), then the flags are drawn. -/
def callTo (a : Addr) (s : State) : Result :=
  withOk (s.callPush s.ipo) fun t => .next (t.jump a).drawFlags

/-- A conditional form: taken when `cond(k)` holds; untaken it only falls through (R261), and the
flags are drawn either way (D6; log entry 34). -/
def onCond (k : CondIx) (taken : State → Result) (s : State) : Result :=
  s.withCond k fun b => if b then taken s else .next s.drawFlags

/-- The target of JR and CALLR: `IPO + offset - instruction_size` modulo 2^24, with IPO after the 5
bytes of the instruction (R106, R263, R265). -/
def State.relTarget (s : State) (o : Addr) : Addr := s.ipo + o - 5

/-! ## NOP (R260) -/

/-- `NOP` (R260): nothing but IPO changes, the flags neither; refused while `SUBOP_PRESENT(0x00)` is
not supplied, since its length is then unknown. -/
def execNop (s : State) : Result :=
  if (s.params.subopPresent? 0x00).isSome then .next s else unspecified "NOP"

/-! ## CALL, CALLR, JP, JR (R262 to R265) -/

/-- `CALL nnn` (R262). -/
def execCallNnn (a : Addr) (s : State) : Result := callTo a s

/-- `CALL cond, nnn` (R262). -/
def execCallCond (k : CondIx) (a : Addr) (s : State) : Result := onCond k (callTo a) s

/-- CALL with another variant: "a form the source does not describe" (R261). -/
def execCallOther (_v : BitVec 3) (_k : BitVec 5) (_s : State) : Result :=
  unspecified "CALL__other_variants"

/-- `CALLR nnn` (R263): the return address is the address after the CALLR, not the adjusted one. -/
def execCallrNnn (o : Addr) (s : State) : Result := callTo (s.relTarget o) s

/-- `CALLR cond, nnn` (R263). -/
def execCallrCond (k : CondIx) (o : Addr) (s : State) : Result :=
  onCond k (callTo (s.relTarget o)) s

/-- CALLR with another variant: "a form the source does not describe" (R261). -/
def execCallrOther (_v : BitVec 3) (_k : BitVec 5) (_s : State) : Result :=
  unspecified "CALLR__other_variants"

/-- `JP nnn` (R264). -/
def execJpNnn (a : Addr) (s : State) : Result := jumpTo a s

/-- `JP cond, nnn` (R264). -/
def execJpCond (k : CondIx) (a : Addr) (s : State) : Result := onCond k (jumpTo a) s

/-- JP with another variant: "a form the source does not describe" (R261). -/
def execJpOther (_v : BitVec 3) (_k : BitVec 5) (_s : State) : Result :=
  unspecified "JP__other_variants"

/-- `JR nnn` (R265). -/
def execJrNnn (o : Addr) (s : State) : Result := jumpTo (s.relTarget o) s

/-- `JR cond, nnn` (R265). -/
def execJrCond (k : CondIx) (o : Addr) (s : State) : Result := onCond k (jumpTo (s.relTarget o)) s

/-- JR with another variant: "a form the source does not describe" (R261). -/
def execJrOther (_v : BitVec 3) (_k : BitVec 5) (_s : State) : Result :=
  unspecified "JR__other_variants"

/-! ## RETIF and RET (R272, R273) -/

/-- `RETIF` (R272): `RetPop()` when the condition holds. A return not taken pops nothing and makes
no underflow test. -/
def execRetif (f : Given CondIx) (s : State) : Result :=
  match f with
  | .form k => onCond k (fun t => .next t.retPop) s
  | .unlisted _ => unspecified "RETIF"

/-- `RET` (R273): `RetPop()`. While `SUBOP_PRESENT(0xFF)` is not supplied it runs at SPC = 0 only,
where the final IPO is not determined (D26; log entry 29). -/
def execRet (s : State) : Result :=
  if (s.params.subopPresent? 0xFF).isSome then .next s.retPop
  else if s.spc = 0 then .next (s.stop.jump (s.drawn.setWidth 24)).drawNext
  else unspecified "RET"

/-! ## Instructions the spec gives no effect (R109, D5) -/

/-- `DJNZ` (R266): "Pseudocode: none can be given". -/
def execDjnz (_b1 : Byte) (_s : State) : Result := unspecified "DJNZ"

/-- `DJNZ16` (R267): "Pseudocode: none can be given". -/
def execDjnz16 (_b1 : Byte) (_s : State) : Result := unspecified "DJNZ16"

/-- `DJNZ24` (R268): "Pseudocode: none can be given". -/
def execDjnz24 (_b1 : Byte) (_s : State) : Result := unspecified "DJNZ24"

/-- `DJNZ32` (R269): "Pseudocode: none can be given". -/
def execDjnz32 (_b1 : Byte) (_s : State) : Result := unspecified "DJNZ32"

end Sys2Proof.Machine
end

