-- ==== Sys2Proof/Machine/FloatMath.lean ====
section
/-! DEFINITION. POW to CEIL (46_float_math.md R300 to R312): no operand form and no effect is stated for any
of them. -/

namespace Sys2Proof.Machine

/-! ## Instructions the spec gives no effect (R109, D5) -/

/-- `POW` (R301): "Pseudocode: none can be given". -/
def execPow (_b1 : Byte) (_s : State) : Result := unspecified "POW"

/-- `SQR` (R302): "Pseudocode: none can be given". -/
def execSqr (_b1 : Byte) (_s : State) : Result := unspecified "SQR"

/-- `CBR` (R303): "Pseudocode: none can be given". -/
def execCbr (_b1 : Byte) (_s : State) : Result := unspecified "CBR"

/-- `ISQR` (R304): "Pseudocode: none can be given". -/
def execIsqr (_b1 : Byte) (_s : State) : Result := unspecified "ISQR"

/-- `ISGN` (R305): "Pseudocode: none can be given". -/
def execIsgn (_b1 : Byte) (_s : State) : Result := unspecified "ISGN"

/-- `SIN` (R306): "Pseudocode: none can be given". -/
def execSin (_b1 : Byte) (_s : State) : Result := unspecified "SIN"

/-- `COS` (R307): "Pseudocode: none can be given". -/
def execCos (_b1 : Byte) (_s : State) : Result := unspecified "COS"

/-- `TAN` (R308): "Pseudocode: none can be given". -/
def execTan (_b1 : Byte) (_s : State) : Result := unspecified "TAN"

/-- `ABS` (R309): "Pseudocode: none can be given". -/
def execAbs (_b1 : Byte) (_s : State) : Result := unspecified "ABS"

/-- `ROUND` (R310): "Pseudocode: none can be given". -/
def execRound (_b1 : Byte) (_s : State) : Result := unspecified "ROUND"

/-- `FLOOR` (R311): "Pseudocode: none can be given". -/
def execFloor (_b1 : Byte) (_s : State) : Result := unspecified "FLOOR"

/-- `CEIL` (R312): "Pseudocode: none can be given". -/
def execCeil (_b1 : Byte) (_s : State) : Result := unspecified "CEIL"

end Sys2Proof.Machine
end

