-- ==== Sys2Proof/Machine/Load.lean ====
section
/-! DEFINITION. LD (40_ld.md). -/

namespace Sys2Proof.Machine

/-! ## Shared: load, move and store (R140) -/

/-- LD to a register of width `w` from memory: indices, effective address, access, write-back
(R140, R410), then the flags are drawn (D6). -/
def loadTo (w : Width) (d : RegIx) (m : MemOp) (s : State) : Result :=
  requireRegs (d :: m.regs) (s.withLoad w m fun v => .next (s.writeReg w d v).drawFlags)

/-- LD to a register of width `w` from a register of that width. -/
def moveTo (w : Width) (d src : RegIx) (s : State) : Result :=
  requireRegs [d, src] (.next (s.writeReg w d (s.readReg w src)).drawFlags)

/-- LD to a register of width `w` from an immediate. -/
def loadImm (w : Width) (d : RegIx) (v : BitVec w.bits) (s : State) : Result :=
  requireRegs [d] (.next (s.writeReg w d v).drawFlags)

/-- LD to memory from a register of width `w` (R157, R63). -/
def storeReg (w : Width) (m : MemOp) (src : RegIx) (s : State) : Result :=
  requireRegs (src :: m.regs) (s.storeTo w m (s.readReg w src))

/-- LD to a register of width `w`: the row whose sub-opcodes R154 to R156 leave to a listing. -/
def loadForm (w : Width) (mnemonic : String) (f : Given (LdForm w)) (s : State) : Result :=
  match f with
  | .form (.imm d v) => loadImm w d v s
  | .form (.reg d src) => moveTo w d src s
  | .form (.mem d m) => loadTo w d m s
  | .unlisted _ => unspecified mnemonic

/-! ## The `_r_*` forms (R141 to R153; the layouts of sub-opcodes 5 and 8 to 12 are inferred, log entry
36) -/

/-- `LD r, n` (R141). -/
def execLdRN (d : RegIx) (n : Byte) (s : State) : Result := loadImm .w8 d n s

/-- `LD r, r` (R142). -/
def execLdRR (d r : RegIx) (s : State) : Result := moveTo .w8 d r s

/-- `LD r, (nnn)` (R143). -/
def execLdRAbs (d : RegIx) (a : Addr) (s : State) : Result := loadTo .w8 d (.abs a) s

/-- `LD r, (nnn, nnn)` (R144). -/
def execLdRAbsImm (d : RegIx) (a o : Addr) (s : State) : Result := loadTo .w8 d (.absImm a o) s

/-- `LD r, (nnn, r)` (R145). -/
def execLdRAbsR8 (d : RegIx) (a : Addr) (q : RegIx) (s : State) : Result := loadTo .w8 d (.absR8 a q) s

/-- `LD r, (nnn, rr)` (R146). -/
def execLdRAbsR16 (d : RegIx) (a : Addr) (q : RegIx) (s : State) : Result :=
  loadTo .w8 d (.absR16 a q) s

/-- `LD r, (nnn, rrr)` (R147). -/
def execLdRAbsR24 (d : RegIx) (a : Addr) (q : RegIx) (s : State) : Result :=
  loadTo .w8 d (.absR24 a q) s

/-- `LD r, (rrr)` (R148). -/
def execLdRInd (d b : RegIx) (s : State) : Result := loadTo .w8 d (.ind b) s

/-- `LD r, (rrr, nnn)` (R149). -/
def execLdRIndImm (d b : RegIx) (o : Addr) (s : State) : Result := loadTo .w8 d (.indImm b o) s

/-- `LD r, (rrr, r)` (R150). -/
def execLdRIndR8 (d b q : RegIx) (s : State) : Result := loadTo .w8 d (.indR8 b q) s

/-- `LD r, (rrr, rr)` (R151). -/
def execLdRIndR16 (d b q : RegIx) (s : State) : Result := loadTo .w8 d (.indR16 b q) s

/-- `LD r, (rrr, rrr)` (R152). -/
def execLdRIndR24 (d b q : RegIx) (s : State) : Result := loadTo .w8 d (.indR24 b q) s

/-- `LD r, fr` (R153): the destination is written (R140); which byte a float becomes is not in the
source, so it is a draw, or the form is refused where the model does not run open forms (log
entry 5). -/
def execLdRFr (d : RegIx) (f : FRegIx) (s : State) : Result :=
  if s.params.runOpen then
    requireRegs [d] (requireFregs [f] (.next (s.drawReg .w8 d).drawFlags))
  else unspecified "LD_r__fr"

/-! ## The other groups (R154 to R158; log entries 2, 30) -/

/-- `LD rr, …` (R154). -/
def execLdRr (f : Given (LdForm .w16)) (s : State) : Result := loadForm .w16 "LD_rr" f s

/-- `LD rrr, …` (R155). -/
def execLdRrr (f : Given (LdForm .w24)) (s : State) : Result := loadForm .w24 "LD_rrr" f s

/-- `LD rrrr, …` (R156). -/
def execLdRrrr (f : Given (LdForm .w32)) (s : State) : Result := loadForm .w32 "LD_rrrr" f s

/-- `LD (…), …` (R157): a general register of a width, or the 4 bytes of a float register (R67,
R70). -/
def execLdMem (f : Given StForm) (s : State) : Result :=
  match f with
  | .form (.reg w m src) => storeReg w m src s
  | .form (.fr m fr) => requireRegs m.regs (requireFregs [fr] (s.storeTo .w32 m (s.readF fr)))
  | .unlisted _ => unspecified "LD"

/-- `LD fr, …` (R158): the 32 bits are copied as they are (R24, R67, R140). -/
def execLdFr (f : Given FrForm) (s : State) : Result :=
  match f with
  | .form (.fr d src) => requireFregs [d, src] (.next (s.writeF d (s.readF src)).drawFlags)
  | .form (.mem d m) =>
    requireRegs m.regs (requireFregs [d] (s.withLoad .w32 m fun v => .next (s.writeF d v).drawFlags))
  | .unlisted _ => unspecified "LD_fr"

/-- LD with a sub-opcode of 244..255, which names no constant (R109, R158). -/
def execLdUndef (sub : Byte) (_s : State) : Result := .fault (.undefinedSubopcode sub)

/-- `LD rrr, (rrr)` (R155). -/
def execLdRrrInd (d b : RegIx) (s : State) : Result := loadTo .w24 d (.ind b) s

/-- `LD (nnn), r` (R157). -/
def execLdAbsR (src : RegIx) (a : Addr) (s : State) : Result := storeReg .w8 (.abs a) src s

end Sys2Proof.Machine
end

