-- ==== Sys2Proof/Machine/Logic.lean ====
section
/-! DEFINITION. Shifts, rotates, bit and logic instructions (42_logic_shift_bit.md R200 to R238): the spec
gives each its name and primary opcode only, and says that a model must not implement it from its
name (R200). -/

namespace Sys2Proof.Machine

/-! ## Instructions the spec gives no effect (R109, D5) -/

/-- `SL` (R201): "Pseudocode: none can be given". -/
def execSl (_b1 : Byte) (_s : State) : Result := unspecified "SL"

/-- `SR` (R202): "Pseudocode: none can be given". -/
def execSr (_b1 : Byte) (_s : State) : Result := unspecified "SR"

/-- `RL` (R203): "Pseudocode: none can be given". -/
def execRl (_b1 : Byte) (_s : State) : Result := unspecified "RL"

/-- `RR` (R204): "Pseudocode: none can be given". -/
def execRr (_b1 : Byte) (_s : State) : Result := unspecified "RR"

/-- `SET` (R205): "Pseudocode: none can be given". -/
def execSet (_b1 : Byte) (_s : State) : Result := unspecified "SET"

/-- `RES` (R206): "Pseudocode: none can be given". -/
def execRes (_b1 : Byte) (_s : State) : Result := unspecified "RES"

/-- `BIT` (R207): "Pseudocode: none can be given". -/
def execBit (_b1 : Byte) (_s : State) : Result := unspecified "BIT"

/-- `AND` (R208): "Pseudocode: none can be given". -/
def execAnd (_b1 : Byte) (_s : State) : Result := unspecified "AND"

/-- `AND16` (R209): "Pseudocode: none can be given". -/
def execAnd16 (_b1 : Byte) (_s : State) : Result := unspecified "AND16"

/-- `AND24` (R210): "Pseudocode: none can be given". -/
def execAnd24 (_b1 : Byte) (_s : State) : Result := unspecified "AND24"

/-- `AND32` (R211): "Pseudocode: none can be given". -/
def execAnd32 (_b1 : Byte) (_s : State) : Result := unspecified "AND32"

/-- `OR` (R212): "Pseudocode: none can be given". -/
def execOr (_b1 : Byte) (_s : State) : Result := unspecified "OR"

/-- `OR16` (R213): "Pseudocode: none can be given". -/
def execOr16 (_b1 : Byte) (_s : State) : Result := unspecified "OR16"

/-- `OR24` (R214): "Pseudocode: none can be given". -/
def execOr24 (_b1 : Byte) (_s : State) : Result := unspecified "OR24"

/-- `OR32` (R215): "Pseudocode: none can be given". -/
def execOr32 (_b1 : Byte) (_s : State) : Result := unspecified "OR32"

/-- `XOR` (R216): "Pseudocode: none can be given". -/
def execXor (_b1 : Byte) (_s : State) : Result := unspecified "XOR"

/-- `XOR16` (R217): "Pseudocode: none can be given". -/
def execXor16 (_b1 : Byte) (_s : State) : Result := unspecified "XOR16"

/-- `XOR24` (R218): "Pseudocode: none can be given". -/
def execXor24 (_b1 : Byte) (_s : State) : Result := unspecified "XOR24"

/-- `XOR32` (R219): "Pseudocode: none can be given". -/
def execXor32 (_b1 : Byte) (_s : State) : Result := unspecified "XOR32"

/-- `INV` (R220): "Pseudocode: none can be given". -/
def execInv (_b1 : Byte) (_s : State) : Result := unspecified "INV"

/-- `IMPLY` (R221): "Pseudocode: none can be given". -/
def execImply (_v : BitVec 3) (_k : BitVec 5) (_s : State) : Result := unspecified "IMPLY"

/-- `IMPLY16` (R222): "Pseudocode: none can be given". -/
def execImply16 (_v : BitVec 3) (_k : BitVec 5) (_s : State) : Result := unspecified "IMPLY16"

/-- `IMPLY24` (R223): "Pseudocode: none can be given". -/
def execImply24 (_v : BitVec 3) (_k : BitVec 5) (_s : State) : Result := unspecified "IMPLY24"

/-- `IMPLY32` (R224): "Pseudocode: none can be given". -/
def execImply32 (_v : BitVec 3) (_k : BitVec 5) (_s : State) : Result := unspecified "IMPLY32"

/-- `NAND` (R225): "Pseudocode: none can be given". -/
def execNand (_b1 : Byte) (_s : State) : Result := unspecified "NAND"

/-- `NAND16` (R226): "Pseudocode: none can be given". -/
def execNand16 (_b1 : Byte) (_s : State) : Result := unspecified "NAND16"

/-- `NAND24` (R227): "Pseudocode: none can be given". -/
def execNand24 (_b1 : Byte) (_s : State) : Result := unspecified "NAND24"

/-- `NAND32` (R228): "Pseudocode: none can be given". -/
def execNand32 (_b1 : Byte) (_s : State) : Result := unspecified "NAND32"

/-- `NOR` (R229): "Pseudocode: none can be given". -/
def execNor (_b1 : Byte) (_s : State) : Result := unspecified "NOR"

/-- `NOR16` (R230): "Pseudocode: none can be given". -/
def execNor16 (_b1 : Byte) (_s : State) : Result := unspecified "NOR16"

/-- `NOR24` (R231): "Pseudocode: none can be given". -/
def execNor24 (_b1 : Byte) (_s : State) : Result := unspecified "NOR24"

/-- `NOR32` (R232): "Pseudocode: none can be given". -/
def execNor32 (_b1 : Byte) (_s : State) : Result := unspecified "NOR32"

/-- `XNOR` (R233): "Pseudocode: none can be given". -/
def execXnor (_b1 : Byte) (_s : State) : Result := unspecified "XNOR"

/-- `XNOR16` (R234): "Pseudocode: none can be given". -/
def execXnor16 (_b1 : Byte) (_s : State) : Result := unspecified "XNOR16"

/-- `XNOR24` (R235): "Pseudocode: none can be given". -/
def execXnor24 (_b1 : Byte) (_s : State) : Result := unspecified "XNOR24"

/-- `XNOR32` (R236): "Pseudocode: none can be given". -/
def execXnor32 (_b1 : Byte) (_s : State) : Result := unspecified "XNOR32"

/-- `GETBITS` (R237): "Pseudocode: none can be given". -/
def execGetbits (_b1 : Byte) (_s : State) : Result := unspecified "GETBITS"

/-- `SETBITS` (R238): "Pseudocode: none can be given". -/
def execSetbits (_b1 : Byte) (_s : State) : Result := unspecified "SETBITS"

end Sys2Proof.Machine
end

