-- ==== Sys2Proof/Machine/Stack.lean ====
section
/-! DEFINITION. POP, PUSH, REGS, FREGS, LDREGS, STREGS (45_stack_regs.md). -/

namespace Sys2Proof.Machine

/-! ## Shared: PUSH and POP of a general register -/

/-- `RsPush(n, x[i])` (R287 to R290). -/
def pushReg (w : Width) (i : RegIx) (s : State) : Result :=
  requireRegs [i] (s.rsPush w (s.readReg w i))

/-- `v <- RsPop(n); x[i] <- v` (R283 to R286). -/
def popReg (w : Width) (i : RegIx) (s : State) : Result :=
  requireRegs [i] (s.rsPop w (fun v t => t.writeReg w i v) fun t => t.drawReg w i)

/-- PUSH or POP of a general register whose encoding is listed. -/
def onListed {α : Type} (mnemonic : String) (f : Given α) (run : α → Result) : Result :=
  match f with
  | .form x => run x
  | .unlisted _ => unspecified mnemonic

/-! ## POP and PUSH (R283 to R290) -/

/-- `POP` (R283). -/
def execPop (f : Given RegIx) (s : State) : Result := onListed "POP" f fun i => popReg .w8 i s

/-- `POP16` (R284). -/
def execPop16 (f : Given RegIx) (s : State) : Result := onListed "POP16" f fun i => popReg .w16 i s

/-- `POP24` (R285). -/
def execPop24 (f : Given RegIx) (s : State) : Result := onListed "POP24" f fun i => popReg .w24 i s

/-- `POP32` (R286): "a float register can be pushed and popped as 4 bytes as well". -/
def execPop32 (f : Given Reg32) (s : State) : Result :=
  onListed "POP32" f fun x =>
    match x with
    | .gen i => popReg .w32 i s
    | .fr r => requireFregs [r] (s.rsPop .w32 (fun v t => t.writeF r v) fun t => t.drawF r)

/-- `PUSH` (R287). -/
def execPush (f : Given RegIx) (s : State) : Result := onListed "PUSH" f fun i => pushReg .w8 i s

/-- `PUSH16` (R288). -/
def execPush16 (f : Given RegIx) (s : State) : Result := onListed "PUSH16" f fun i => pushReg .w16 i s

/-- `PUSH24` (R289). -/
def execPush24 (f : Given RegIx) (s : State) : Result := onListed "PUSH24" f fun i => pushReg .w24 i s

/-- `PUSH32` (R290). -/
def execPush32 (f : Given Reg32) (s : State) : Result :=
  onListed "PUSH32" f fun x =>
    match x with
    | .gen i => pushReg .w32 i s
    | .fr r => requireFregs [r] (s.rsPush .w32 (s.readF r))

/-! ## Instructions the spec gives no effect (R109, D5) -/

/-- `REGS` (R291): "Pseudocode: none can be given". -/
def execRegs (_b1 : Byte) (_s : State) : Result := unspecified "REGS"

/-- `LDREGS` (R293): "Pseudocode: none can be given". -/
def execLdregs (_b1 : Byte) (_s : State) : Result := unspecified "LDREGS"

/-- `STREGS` (R294): "Pseudocode: none can be given". -/
def execStregs (_b1 : Byte) (_s : State) : Result := unspecified "STREGS"

/-- `FREGS` (R292): "Pseudocode: none can be given". -/
def execFregs (_b1 : Byte) (_s : State) : Result := unspecified "FREGS"

end Sys2Proof.Machine
end

