-- ==== Sys2Proof/Machine/System.lean ====
section
/-! DEFINITION. INT, WAIT, VDL, VCL, FIND, MEMF, MEMC, PLAY, SETVAR, GETVAR, the colour conversions, DEBUG,
BREAK (47_system_block_video.md). -/

namespace Sys2Proof.Machine

/-! ## SETVAR and GETVAR (R320, R329, R330) -/

/-- Go on with an HMEM index the instruction may reach: the two named entries, and the system
variables 0..65533 where the model runs open forms (R34, R68, D23; log entry 7). -/
def withHmemIndex (k : Word32) (s : State) (run : Nat → Result) : Result :=
  if k.toNat < Config.hmemEntries then
    if Config.errorId ≤ k.toNat ∨ s.params.runOpen then run k.toNat
    else .refused .systemVariable
  else .refused .hmemIndexAboveRange

/-- `SETVAR` (R329): `HMEM[k] <- v`. -/
def execSetvar (f : Given SetForm) (s : State) : Result :=
  match f with
  | .form x =>
    requireRegs (x.k.regs ++ x.v.regs)
      (withHmemIndex (s.src32 x.k) s fun k => .next (s.hmemWrite k (s.src32 x.v)).drawFlags)
  | .unlisted _ => unspecified "SETVAR"

/-- `GETVAR` (R330): `x32[d] <- HMEM[k]`. -/
def execGetvar (f : Given GetForm) (s : State) : Result :=
  match f with
  | .form x =>
    requireRegs (x.d :: x.k.regs)
      (withHmemIndex (s.src32 x.k) s fun k => .next (s.writeReg .w32 x.d (s.hmemRead k)).drawFlags)
  | .unlisted _ => unspecified "GETVAR"

/-! ## Instructions the spec gives no effect (R109, D5) -/

/-- `INT` (R321): "Pseudocode: none can be given". -/
def execInt (_b1 : Byte) (_s : State) : Result := unspecified "INT"

/-- `WAIT` (R322): "Pseudocode: none can be given". -/
def execWait (_b1 : Byte) (_s : State) : Result := unspecified "WAIT"

/-- `VDL` (R323): "Pseudocode: none can be given". -/
def execVdl (_b1 : Byte) (_s : State) : Result := unspecified "VDL"

/-- `VCL` (R324): "Pseudocode: none can be given". -/
def execVcl (_b1 : Byte) (_s : State) : Result := unspecified "VCL"

/-- `FIND` (R325): "Pseudocode: none can be given". -/
def execFind (_b1 : Byte) (_s : State) : Result := unspecified "FIND"

/-- `MEMF` (R326): "Pseudocode: none can be given". -/
def execMemf (_b1 : Byte) (_s : State) : Result := unspecified "MEMF"

/-- `MEMC` (R327): "Pseudocode: none can be given". -/
def execMemc (_b1 : Byte) (_s : State) : Result := unspecified "MEMC"

/-- `PLAY` (R328): "Pseudocode: none can be given". -/
def execPlay (_b1 : Byte) (_s : State) : Result := unspecified "PLAY"

/-- `RGB2HSL` (R331): "Pseudocode: none can be given". -/
def execRgb2hsl (_b1 : Byte) (_s : State) : Result := unspecified "RGB2HSL"

/-- `HSL2RGB` (R332): "Pseudocode: none can be given". -/
def execHsl2rgb (_b1 : Byte) (_s : State) : Result := unspecified "HSL2RGB"

/-- `RGB2HSB` (R333): "Pseudocode: none can be given". -/
def execRgb2hsb (_b1 : Byte) (_s : State) : Result := unspecified "RGB2HSB"

/-- `HSB2RGB` (R334): "Pseudocode: none can be given". -/
def execHsb2rgb (_b1 : Byte) (_s : State) : Result := unspecified "HSB2RGB"

/-- `DEBUG` (R335): "Pseudocode: none can be given". -/
def execDebug (_b1 : Byte) (_s : State) : Result := unspecified "DEBUG"

/-- `BREAK` (R336): "Pseudocode: none can be given". -/
def execBrk (_b1 : Byte) (_s : State) : Result := unspecified "BREAK"

end Sys2Proof.Machine
end

