-- ==== Sys2Proof/Machine/Dispatch.lean ====
section
/-! DEFINITION. One arm per instruction (30_encoding.md R93): the meaning runs with IPO already after
the instruction's bytes. -/

namespace Sys2Proof.Machine

/-- What an instruction does. -/
def exec (i : Instr) (s : State) : Host.Outcome State Fault Refusal :=
  match i with
  | .nop => Sys2Proof.Machine.execNop s
  | .ldRN d n => Sys2Proof.Machine.execLdRN d n s
  | .ldRR d r => Sys2Proof.Machine.execLdRR d r s
  | .ldRAbs d a => Sys2Proof.Machine.execLdRAbs d a s
  | .ldRAbsImm d a o => Sys2Proof.Machine.execLdRAbsImm d a o s
  | .ldRAbsR8 d a q => Sys2Proof.Machine.execLdRAbsR8 d a q s
  | .ldRAbsR16 d a q => Sys2Proof.Machine.execLdRAbsR16 d a q s
  | .ldRAbsR24 d a q => Sys2Proof.Machine.execLdRAbsR24 d a q s
  | .ldRInd d b => Sys2Proof.Machine.execLdRInd d b s
  | .ldRIndImm d b o => Sys2Proof.Machine.execLdRIndImm d b o s
  | .ldRIndR8 d b q => Sys2Proof.Machine.execLdRIndR8 d b q s
  | .ldRIndR16 d b q => Sys2Proof.Machine.execLdRIndR16 d b q s
  | .ldRIndR24 d b q => Sys2Proof.Machine.execLdRIndR24 d b q s
  | .ldRFr d f => Sys2Proof.Machine.execLdRFr d f s
  | .ldRr f => Sys2Proof.Machine.execLdRr f s
  | .ldRrr f => Sys2Proof.Machine.execLdRrr f s
  | .ldRrrr f => Sys2Proof.Machine.execLdRrrr f s
  | .ldMem f => Sys2Proof.Machine.execLdMem f s
  | .ldFr f => Sys2Proof.Machine.execLdFr f s
  | .ldUndef b => Sys2Proof.Machine.execLdUndef b s
  | .ldRrrInd d b => Sys2Proof.Machine.execLdRrrInd d b s
  | .ldAbsR r a => Sys2Proof.Machine.execLdAbsR r a s
  | .addRN d n => Sys2Proof.Machine.execAddRN d n s
  | .addR f => Sys2Proof.Machine.execAddR f s
  | .addUndef b => Sys2Proof.Machine.execAddUndef b s
  | .add16 b1 => Sys2Proof.Machine.execAdd16 b1 s
  | .add24 b1 => Sys2Proof.Machine.execAdd24 b1 s
  | .add32 b1 => Sys2Proof.Machine.execAdd32 b1 s
  | .sub f => Sys2Proof.Machine.execSub f s
  | .sub16 b1 => Sys2Proof.Machine.execSub16 b1 s
  | .sub24 b1 => Sys2Proof.Machine.execSub24 b1 s
  | .sub32 b1 => Sys2Proof.Machine.execSub32 b1 s
  | .subUndef b => Sys2Proof.Machine.execSubUndef b s
  | .div f => Sys2Proof.Machine.execDiv f s
  | .mul b1 => Sys2Proof.Machine.execMul b1 s
  | .sl b1 => Sys2Proof.Machine.execSl b1 s
  | .sr b1 => Sys2Proof.Machine.execSr b1 s
  | .rl b1 => Sys2Proof.Machine.execRl b1 s
  | .rr b1 => Sys2Proof.Machine.execRr b1 s
  | .set b1 => Sys2Proof.Machine.execSet b1 s
  | .res b1 => Sys2Proof.Machine.execRes b1 s
  | .bit b1 => Sys2Proof.Machine.execBit b1 s
  | .and b1 => Sys2Proof.Machine.execAnd b1 s
  | .and16 b1 => Sys2Proof.Machine.execAnd16 b1 s
  | .and24 b1 => Sys2Proof.Machine.execAnd24 b1 s
  | .and32 b1 => Sys2Proof.Machine.execAnd32 b1 s
  | .or b1 => Sys2Proof.Machine.execOr b1 s
  | .or16 b1 => Sys2Proof.Machine.execOr16 b1 s
  | .or24 b1 => Sys2Proof.Machine.execOr24 b1 s
  | .or32 b1 => Sys2Proof.Machine.execOr32 b1 s
  | .xor b1 => Sys2Proof.Machine.execXor b1 s
  | .xor16 b1 => Sys2Proof.Machine.execXor16 b1 s
  | .xor24 b1 => Sys2Proof.Machine.execXor24 b1 s
  | .xor32 b1 => Sys2Proof.Machine.execXor32 b1 s
  | .inv b1 => Sys2Proof.Machine.execInv b1 s
  | .ex v k => Sys2Proof.Machine.execEx v k s
  | .cp v k => Sys2Proof.Machine.execCp v k s
  | .inc b1 => Sys2Proof.Machine.execInc b1 s
  | .inc16 b1 => Sys2Proof.Machine.execInc16 b1 s
  | .inc24 b1 => Sys2Proof.Machine.execInc24 b1 s
  | .inc32 b1 => Sys2Proof.Machine.execInc32 b1 s
  | .dec b1 => Sys2Proof.Machine.execDec b1 s
  | .dec16 b1 => Sys2Proof.Machine.execDec16 b1 s
  | .dec24 b1 => Sys2Proof.Machine.execDec24 b1 s
  | .dec32 b1 => Sys2Proof.Machine.execDec32 b1 s
  | .callNnn a => Sys2Proof.Machine.execCallNnn a s
  | .callCond k a => Sys2Proof.Machine.execCallCond k a s
  | .callOther v k => Sys2Proof.Machine.execCallOther v k s
  | .callrNnn o => Sys2Proof.Machine.execCallrNnn o s
  | .callrCond k o => Sys2Proof.Machine.execCallrCond k o s
  | .callrOther v k => Sys2Proof.Machine.execCallrOther v k s
  | .jpNnn a => Sys2Proof.Machine.execJpNnn a s
  | .jpCond k a => Sys2Proof.Machine.execJpCond k a s
  | .jpOther v k => Sys2Proof.Machine.execJpOther v k s
  | .jrNnn o => Sys2Proof.Machine.execJrNnn o s
  | .jrCond k o => Sys2Proof.Machine.execJrCond k o s
  | .jrOther v k => Sys2Proof.Machine.execJrOther v k s
  | .pop f => Sys2Proof.Machine.execPop f s
  | .pop16 f => Sys2Proof.Machine.execPop16 f s
  | .pop24 f => Sys2Proof.Machine.execPop24 f s
  | .pop32 f => Sys2Proof.Machine.execPop32 f s
  | .push f => Sys2Proof.Machine.execPush f s
  | .push16 f => Sys2Proof.Machine.execPush16 f s
  | .push24 f => Sys2Proof.Machine.execPush24 f s
  | .push32 f => Sys2Proof.Machine.execPush32 f s
  | .int b1 => Sys2Proof.Machine.execInt b1 s
  | .rand b1 => Sys2Proof.Machine.execRand b1 s
  | .min b1 => Sys2Proof.Machine.execMin b1 s
  | .max b1 => Sys2Proof.Machine.execMax b1 s
  | .djnz b1 => Sys2Proof.Machine.execDjnz b1 s
  | .djnz16 b1 => Sys2Proof.Machine.execDjnz16 b1 s
  | .djnz24 b1 => Sys2Proof.Machine.execDjnz24 b1 s
  | .djnz32 b1 => Sys2Proof.Machine.execDjnz32 b1 s
  | .setf b1 => Sys2Proof.Machine.execSetf b1 s
  | .resf b1 => Sys2Proof.Machine.execResf b1 s
  | .invf b1 => Sys2Proof.Machine.execInvf b1 s
  | .ldf b1 => Sys2Proof.Machine.execLdf b1 s
  | .regs b1 => Sys2Proof.Machine.execRegs b1 s
  | .wait b1 => Sys2Proof.Machine.execWait b1 s
  | .vdl b1 => Sys2Proof.Machine.execVdl b1 s
  | .vcl b1 => Sys2Proof.Machine.execVcl b1 s
  | .find b1 => Sys2Proof.Machine.execFind b1 s
  | .imply v k => Sys2Proof.Machine.execImply v k s
  | .imply16 v k => Sys2Proof.Machine.execImply16 v k s
  | .imply24 v k => Sys2Proof.Machine.execImply24 v k s
  | .imply32 v k => Sys2Proof.Machine.execImply32 v k s
  | .nand b1 => Sys2Proof.Machine.execNand b1 s
  | .nand16 b1 => Sys2Proof.Machine.execNand16 b1 s
  | .nand24 b1 => Sys2Proof.Machine.execNand24 b1 s
  | .nand32 b1 => Sys2Proof.Machine.execNand32 b1 s
  | .nor b1 => Sys2Proof.Machine.execNor b1 s
  | .nor16 b1 => Sys2Proof.Machine.execNor16 b1 s
  | .nor24 b1 => Sys2Proof.Machine.execNor24 b1 s
  | .nor32 b1 => Sys2Proof.Machine.execNor32 b1 s
  | .xnor b1 => Sys2Proof.Machine.execXnor b1 s
  | .xnor16 b1 => Sys2Proof.Machine.execXnor16 b1 s
  | .xnor24 b1 => Sys2Proof.Machine.execXnor24 b1 s
  | .xnor32 b1 => Sys2Proof.Machine.execXnor32 b1 s
  | .getbits b1 => Sys2Proof.Machine.execGetbits b1 s
  | .setbits b1 => Sys2Proof.Machine.execSetbits b1 s
  | .memf b1 => Sys2Proof.Machine.execMemf b1 s
  | .memc b1 => Sys2Proof.Machine.execMemc b1 s
  | .ldregs b1 => Sys2Proof.Machine.execLdregs b1 s
  | .stregs b1 => Sys2Proof.Machine.execStregs b1 s
  | .sdiv f => Sys2Proof.Machine.execSdiv f s
  | .smul b1 => Sys2Proof.Machine.execSmul b1 s
  | .scp b1 => Sys2Proof.Machine.execScp b1 s
  | .fregs b1 => Sys2Proof.Machine.execFregs b1 s
  | .pow b1 => Sys2Proof.Machine.execPow b1 s
  | .sqr b1 => Sys2Proof.Machine.execSqr b1 s
  | .cbr b1 => Sys2Proof.Machine.execCbr b1 s
  | .isqr b1 => Sys2Proof.Machine.execIsqr b1 s
  | .isgn b1 => Sys2Proof.Machine.execIsgn b1 s
  | .sin b1 => Sys2Proof.Machine.execSin b1 s
  | .cos b1 => Sys2Proof.Machine.execCos b1 s
  | .tan b1 => Sys2Proof.Machine.execTan b1 s
  | .abs b1 => Sys2Proof.Machine.execAbs b1 s
  | .round b1 => Sys2Proof.Machine.execRound b1 s
  | .floor b1 => Sys2Proof.Machine.execFloor b1 s
  | .ceil b1 => Sys2Proof.Machine.execCeil b1 s
  | .play b1 => Sys2Proof.Machine.execPlay b1 s
  | .setvar f => Sys2Proof.Machine.execSetvar f s
  | .getvar f => Sys2Proof.Machine.execGetvar f s
  | .rgb2hsl b1 => Sys2Proof.Machine.execRgb2hsl b1 s
  | .hsl2rgb b1 => Sys2Proof.Machine.execHsl2rgb b1 s
  | .rgb2hsb b1 => Sys2Proof.Machine.execRgb2hsb b1 s
  | .hsb2rgb b1 => Sys2Proof.Machine.execHsb2rgb b1 s
  | .debug b1 => Sys2Proof.Machine.execDebug b1 s
  | .brk b1 => Sys2Proof.Machine.execBrk b1 s
  | .retif f => Sys2Proof.Machine.execRetif f s
  | .ret => Sys2Proof.Machine.execRet s

end Sys2Proof.Machine
end

