-- ==== Sys2Proof/Machine/Step.lean ====
section
/-! DEFINITION. One turn of the execution loop (30_encoding.md R91), and the host's word fetch. -/

namespace Sys2Proof.Machine

/-- One step (R91, R410): a stopped machine takes none (R408); otherwise the primary opcode and the
operands are fetched, IPO moves past them (R26), and the instruction runs. A multi-byte operand
fetch that would pass 0xFFFFFF is a fault (R65, R92). -/
def step (s : State) : Host.Outcome State Fault Refusal :=
  if s.running then
    match decodeAt s.params s.instrByte with
    | .error _ => .fault (.unassignedOpcode (s.instrByte 0))
    | .ok i =>
      if (i.fetches s.params).all s.canFetch then exec i (s.advance (i.length s.params))
      else .fault .accessCrossesTop
  else .fault .stopped

/-- The state with the first `n` bytes of a word of the opcode table at IPO. -/
def State.storeWord (s : State) (nbits w : Nat) : Nat → State
  | 0 => s
  | n + 1 =>
    let t := s.storeWord nbits w n
    { t with ram := Memory.write t.ram (s.ipo + BitVec.ofNat 24 n).toNat (tableByte nbits w n) }

/-- `s` with an instruction of the opcode table stored where `step` fetches its next instruction: at
IPO, one byte an address, the bits above `nbits` zero. Ten bytes are written, the length of the
longest instruction of the model; it stands for the load of a program (log entry 11). -/
def State.withFetchWord (s : State) (nbits w : Nat) : State := s.storeWord nbits w 10

end Sys2Proof.Machine
end

