-- ==== Sys2Proof/Machine/Launch.lean ====
section
/-! DEFINITION. Loading a program and launching it (30_encoding.md R114, 70_reset_and_hazards.md
R440, R443): the host supplies a set of blocks and `RUN_ADDRESS` (`Params.runAddress`). -/

namespace Sys2Proof.Machine

/-- A code block: its origin address and its bytes (R114). -/
structure Block where
  origin : Nat
  bytes : List Byte
deriving DecidableEq, Repr

/-- The first address after the block. -/
def Block.stop (b : Block) : Nat := b.origin + b.bytes.length

/-- The block lies within 0x000000..0xFFFFFF (R114, D28). -/
def Block.inRange (b : Block) : Bool := b.origin < Config.addrWrap && b.stop ≤ Config.addrWrap

/-- Some byte of RAM belongs to both blocks (R114, D28; two blocks of which one is empty do not
overlap, log entry 11). -/
def Block.overlaps (b c : Block) : Bool := max b.origin c.origin < min b.stop c.stop

/-- What the loader accepts: every block in range, and no two that overlap (R114, D28). -/
def loadable : List Block → Bool
  | [] => true
  | b :: r => b.inRange && r.all (fun c => !b.overlaps c) && loadable r

/-- `RAM[b.origin + j] <- b.bytes[j]` for every `j` (R440 step 1). -/
def Block.load (b : Block) (m : Memory 8) : Memory 8 :=
  Memory.writeSeq m (b.origin + ·) (b.bytes.getD · 0) b.bytes.length

/-- Step 1 of R440 for every block. -/
def loadBlocks (m : Memory 8) : List Block → Memory 8
  | [] => m
  | b :: r => loadBlocks (b.load m) r

/-- The launch sequence of R440: the blocks' bytes at their origins, SPR and SPC 0, IPO at
`RUN_ADDRESS`, running. Everything else is as in `s`: the launch values that the source does not state
(R42) are arbitrary, and `s` supplies them. A set of blocks that the loader does not accept is refused
(R114, D28). -/
def State.launch (s : State) (blocks : List Block) : Result :=
  if loadable blocks then
    .next { s with ram := loadBlocks s.ram blocks, spr := 0, spc := 0,
                   ipo := s.params.runAddress, running := true }
  else .refused .badLoadImage

/-- `RUN_ADDRESS` of an assembled program (R440): the operand of its `#RUN`, or else the address of
its first `#ORG`, or else 0. -/
def runAddressOf (run : Option Addr) (orgs : List Addr) : Addr := run.getD (orgs.headD 0)

end Sys2Proof.Machine
end

