-- ==== Sys2Proof/Safety.lean ====
section
/-! DEFINITION. The terms that statements use: the locations of the machine and what a step leaves
alone (`State.frame`), the invariant of every step (`State.Inv`), and which instructions reach which
memory (20_memory.md R60). -/

namespace Sys2Proof.Machine

/-! ## Locations and frames -/

/-- A location of the machine: one cell of a register file or of a memory, by its key, or one of the
other pieces of state (10_state.md). The model's own `draws` is none. -/
inductive Loc where
  | reg (k : Nat)
  | freg (k : Nat)
  | ram (k : Nat)
  | rsram (k : Nat)
  | csram (k : Nat)
  | hmem (k : Nat)
  | rbank
  | fbank
  | ipo
  | spr
  | spc
  | flags
  | running
deriving DecidableEq, Repr

/-- What a location holds, as a number. -/
def State.look (s : State) : Loc → Nat
  | .reg k => (Memory.read s.regs k).toNat
  | .freg k => (Memory.read s.fregs k).toNat
  | .ram k => (Memory.read s.ram k).toNat
  | .rsram k => (Memory.read s.rsram k).toNat
  | .csram k => (Memory.read s.csram k).toNat
  | .hmem k => (Memory.read s.hmem k).toNat
  | .rbank => s.rbank.toNat
  | .fbank => s.fbank.toNat
  | .ipo => s.ipo.toNat
  | .spr => s.spr.toNat
  | .spc => s.spc.toNat
  | .flags => s.flags.toNat
  | .running => s.running.toNat

/-- From `s` to `t` nothing changes but the listed locations (and the model's count of draws). -/
def State.frame (s t : State) (changed : List Loc) : Prop :=
  (∀ l, l ∉ changed → t.look l = s.look l) ∧ t.params = s.params

/-- The general registers of an operand of the width that begins with register `i` (R22). -/
def State.regLocs (s : State) (w : Width) (i : RegIx) : List Loc :=
  (List.range w.bytes).map fun j => .reg (regKey s.rbank i j)

/-- The float register `f` of the current bank (R24). -/
def State.fregLoc (s : State) (f : FRegIx) : Loc := .freg (fregKey s.fbank f)

/-- The RAM bytes of an operand of the width at address `a` (R63). -/
def ramLocs (w : Width) (a : Addr) : List Loc :=
  (List.range w.bytes).map fun j => .ram (a.toNat + j)

/-- The RSRAM bytes of an item of the width at offset `off` (R76). -/
def rsramLocs (w : Width) (off : Nat) : List Loc :=
  (List.range w.bytes).map fun j => .rsram (off + j)

/-! ## The invariant -/

/-- What every step keeps: each memory is in canonical form and within its size (R5, R21, R25, R31 to
R34), SPR is at most 4,194,303 (R281), SPC at most 1,048,576 (R28), the parameters are well formed. -/
def State.Inv (s : State) : Prop :=
  Memory.wf (Config.nRegs * Config.nRegBanks) s.regs = true ∧
  Memory.wf (Config.nFregs * Config.nFregBanks) s.fregs = true ∧
  Memory.wf Config.ramBytes s.ram = true ∧
  Memory.wf Config.rsramBytes s.rsram = true ∧
  Memory.wf Config.csramEntries s.csram = true ∧
  Memory.wf Config.hmemEntries s.hmem = true ∧
  s.spr.toNat < Config.rsramBytes ∧
  s.spc.toNat ≤ Config.csramEntries ∧
  s.params.wf = true

/-! ## Which instructions reach which memory (R60) -/

/-- PUSH and POP of every width: the instructions that reach RSRAM and SPR (R27, R32, R60). -/
def usesRsram : Instr → Bool
  | .push _ | .push16 _ | .push24 _ | .push32 _ => true
  | .pop _ | .pop16 _ | .pop24 _ | .pop32 _ => true
  | _ => false

/-- CALL and CALLR (R262, R263). -/
def isCall : Instr → Bool
  | .callNnn _ | .callCond _ _ | .callrNnn _ | .callrCond _ _ => true
  | _ => false

/-- RET and RETIF (R272, R273). -/
def isReturn : Instr → Bool
  | .ret | .retif _ => true
  | _ => false

/-- The instructions that write HMEM: SETVAR, and those that can raise an error (R60, R401, R406). -/
def writesHmem : Instr → Bool
  | .setvar _ | .div _ | .sdiv _ => true
  | i => usesRsram i

/-- The instructions that write RAM: LD with a memory destination (R31, R157). -/
def writesRam : Instr → Bool
  | .ldMem _ | .ldAbsR _ _ => true
  | _ => false

/-- The LD instructions that load one byte from memory (R143 to R152), with their destination and
memory operand. -/
def byteLoad? : Instr → Option (RegIx × MemOp)
  | .ldRAbs d a => some (d, .abs a)
  | .ldRAbsImm d a o => some (d, .absImm a o)
  | .ldRAbsR8 d a q => some (d, .absR8 a q)
  | .ldRAbsR16 d a q => some (d, .absR16 a q)
  | .ldRAbsR24 d a q => some (d, .absR24 a q)
  | .ldRInd d b => some (d, .ind b)
  | .ldRIndImm d b o => some (d, .indImm b o)
  | .ldRIndR8 d b q => some (d, .indR8 b q)
  | .ldRIndR16 d b q => some (d, .indR16 b q)
  | .ldRIndR24 d b q => some (d, .indR24 b q)
  | _ => none

/-! ## Instructions by shape -/

/-- PUSH of a general register of the width (R287 to R290). -/
def pushOf : Width → RegIx → Instr
  | .w8, i => .push (.form i)
  | .w16, i => .push16 (.form i)
  | .w24, i => .push24 (.form i)
  | .w32, i => .push32 (.form (.gen i))

/-- POP of a general register of the width (R283 to R286). -/
def popOf : Width → RegIx → Instr
  | .w8, i => .pop (.form i)
  | .w16, i => .pop16 (.form i)
  | .w24, i => .pop24 (.form i)
  | .w32, i => .pop32 (.form (.gen i))

/-- The general register indices that an LD form names. -/
def ldFormRegs {w : Width} : LdForm w → List RegIx
  | .imm d _ => [d]
  | .reg d s => [d, s]
  | .mem d m => d :: m.regs

/-- The general register indices that an ADD or SUB form names. -/
def arithRegs : ArithForm → List RegIx
  | .imm d _ | .fr d _ => [d]
  | .reg d s => [d, s]
  | .mem d m => d :: m.regs

/-- The ADD or SUB form of sub-opcode 12, which has a float register operand: it is refused (R170, log
entry 4). -/
def arithFloat : ArithForm → Bool
  | .fr _ _ => true
  | _ => false

/-- The destination of an ADD or SUB form. -/
def arithDest : ArithForm → RegIx
  | .imm d _ | .reg d _ | .mem d _ | .fr d _ => d

/-- The second operand of an ADD or SUB form: the byte that LD would load (R170); none for the form with
a float register. -/
def State.arithSrc (s : State) : ArithForm → Option (Except Fault Byte)
  | .imm _ n => some (.ok n)
  | .reg _ r => some (.ok (s.readReg .w8 r))
  | .mem _ m => some ((s.ea m).bind fun a => s.memRead .w8 a)
  | .fr _ _ => none

/-- The general register indices that an instruction with a meaning names (R23); the form of ADD or SUB
with a float register has none. -/
def regIxs : Instr → List RegIx
  | .ldRN d _ | .addRN d _ | .ldRFr d _ => [d]
  | .ldRR d s => [d, s]
  | .ldRAbs d a => d :: (MemOp.abs a).regs
  | .ldRAbsImm d a o => d :: (MemOp.absImm a o).regs
  | .ldRAbsR8 d a q => d :: (MemOp.absR8 a q).regs
  | .ldRAbsR16 d a q => d :: (MemOp.absR16 a q).regs
  | .ldRAbsR24 d a q => d :: (MemOp.absR24 a q).regs
  | .ldRInd d b => d :: (MemOp.ind b).regs
  | .ldRIndImm d b o => d :: (MemOp.indImm b o).regs
  | .ldRIndR8 d b q => d :: (MemOp.indR8 b q).regs
  | .ldRIndR16 d b q => d :: (MemOp.indR16 b q).regs
  | .ldRIndR24 d b q => d :: (MemOp.indR24 b q).regs
  | .ldRr (.form f) => ldFormRegs f
  | .ldRrr (.form f) => ldFormRegs f
  | .ldRrrr (.form f) => ldFormRegs f
  | .ldMem (.form (.reg _ m s)) => s :: m.regs
  | .ldMem (.form (.fr m _)) => m.regs
  | .ldFr (.form (.mem _ m)) => m.regs
  | .ldRrrInd d b => [d, b]
  | .ldAbsR s _ => [s]
  | .addR (.form f) | .sub (.form f) => if arithFloat f then [] else arithRegs f
  | .div (.form f) | .sdiv (.form f) => [f.d, f.s]
  | .pop (.form i) | .pop16 (.form i) | .pop24 (.form i) | .pop32 (.form (.gen i)) => [i]
  | .push (.form i) | .push16 (.form i) | .push24 (.form i) | .push32 (.form (.gen i)) => [i]
  | .setvar (.form f) => f.k.regs ++ f.v.regs
  | .getvar (.form f) => f.d :: f.k.regs
  | _ => []

/-- The float register indices that an instruction with a meaning names (R24). -/
def fregIxs : Instr → List FRegIx
  | .ldRFr _ f => [f]
  | .ldMem (.form (.fr _ f)) => [f]
  | .ldFr (.form (.fr d s)) => [d, s]
  | .ldFr (.form (.mem d _)) => [d]
  | .pop32 (.form (.fr f)) | .push32 (.form (.fr f)) => [f]
  | _ => []

/-- The condition index of a conditional instruction (R30). -/
def condIx? : Instr → Option CondIx
  | .callCond k _ | .callrCond k _ | .jpCond k _ | .jrCond k _ | .retif (.form k) => some k
  | _ => none

/-! ## Register bytes (R102, R103) -/

/-- Where the register bytes of a memory operand stand whose parts begin at byte `k`. -/
def memRegBytes (m : MemOp) (k : Nat) : List Nat :=
  match m with
  | .abs _ | .absImm _ _ => []
  | .absR8 _ _ | .absR16 _ _ | .absR24 _ _ => [k + 3]
  | .ind _ | .indImm _ _ => [k]
  | .indR8 _ _ | .indR16 _ _ | .indR24 _ _ => [k, k + 1]

/-- Where the register byte of a 32-bit source operand stands that begins at byte `k`. -/
def src32RegBytes (x : Src32) (k : Nat) : List Nat :=
  match x with
  | .imm _ => []
  | .reg _ => [k]

/-- Where the register bytes of an LD form stand. -/
def ldFormRegBytes {w : Width} : LdForm w → List Nat
  | .imm _ _ => [2]
  | .reg _ _ => [2, 3]
  | .mem _ m => 2 :: memRegBytes m 3

/-- Where the register bytes of an ADD or SUB form stand. -/
def arithRegBytes : ArithForm → List Nat
  | .imm _ _ => [2]
  | .reg _ _ | .fr _ _ => [2, 3]
  | .mem _ m => 2 :: memRegBytes m 3

/-- Where the register bytes of an instruction stand that pattern 1 gives a byte of their own, of a
general or a float register: after the sub-opcode, so at byte 2 or later (R96, R102, R103). -/
def regBytes (p : Params) (i : Instr) : List Nat :=
  match i with
  | .ldRN _ _ | .addRN _ _ | .ldAbsR _ _ => [2]
  | .ldRR _ _ | .ldRFr _ _ | .ldRrrInd _ _ => [2, 3]
  | .ldRr (.form f) => ldFormRegBytes f
  | .ldRrr (.form f) => ldFormRegBytes f
  | .ldRrrr (.form f) => ldFormRegBytes f
  | .ldMem (.form (.reg _ m _)) | .ldMem (.form (.fr m _)) => 2 :: memRegBytes m 3
  | .ldFr (.form (.fr _ _)) => [2, 3]
  | .ldFr (.form (.mem _ m)) => 2 :: memRegBytes m 3
  | .addR (.form f) | .sub (.form f) => arithRegBytes f
  | .div (.form _) => [p.lead 0x04, p.lead 0x04 + 1].filter (2 ≤ ·)
  | .sdiv (.form _) => [p.lead 0x5C, p.lead 0x5C + 1].filter (2 ≤ ·)
  | .pop (.form _) | .pop16 (.form _) | .pop24 (.form _) | .pop32 (.form _) =>
    [p.lead 0x1A].filter (2 ≤ ·)
  | .push (.form _) | .push16 (.form _) | .push24 (.form _) | .push32 (.form _) =>
    [p.lead 0x1C].filter (2 ≤ ·)
  | .setvar (.form f) =>
    (src32RegBytes f.emitted.1 (p.lead 0xBE) ++
      src32RegBytes f.emitted.2 (p.lead 0xBE + f.emitted.1.kind.size)).filter (2 ≤ ·)
  | .getvar (.form f) => (p.lead 0xBF :: src32RegBytes f.k (p.lead 0xBF + 1)).filter (2 ≤ ·)
  | i =>
    match byteLoad? i with
    | some (_, m) => 2 :: memRegBytes m 3
    | none => []

/-! ## Terms of the rules -/

/-- `s(i, k)` of R22: the `k`-th register after register `i`, with register 0 after register 25. -/
def regSucc (i : RegIx) (k : Nat) : RegIx := BitVec.ofNat 5 ((i.toNat + k) % 26)

/-- The 178 unassigned primary opcodes, as R94 lists them. -/
def unassigned (op : Nat) : Bool :=
  [(0x19, 0x19), (0x1B, 0x1B), (0x22, 0x23), (0x2D, 0x2F), (0x34, 0x37), (0x3A, 0x3F), (0x42, 0x45),
   (0x48, 0x5B), (0x65, 0x65), (0x69, 0x7F), (0x84, 0x9F), (0xA1, 0xBD), (0xC4, 0xFB)].any
    fun r => r.1 ≤ op && op ≤ r.2

/-- The offset that a register of `n` bits stands for (R84), as an integer: `none` where the top bit
is set and `OFFSET_REG_SIGNED` is not supplied. -/
def offsetValue {n : Nat} (offsetSigned : Option Bool) (v : BitVec n) : Option Int :=
  if v.msb then offsetSigned.map fun sgn => if sgn then v.toInt else (v.toNat : Int) else some v.toNat

/-- The target that JR and CALLR reach from an address and a signed offset (R106, R263, R265): IPO
plus the offset minus the instruction size, modulo 2^24. -/
def relative (ipo : Addr) (o : Addr) : Int := ((ipo.toNat : Int) + o.toInt - 5) % 2 ^ 24

end Sys2Proof.Machine
end

