-- ==== Sys2Proof/Certificates/Slice0/Obligations.lean ====
section
/-! DEFINITION. The statements for the provers. Conventions: `State.frame s t c` says that from `s` to
`t` nothing changes but the locations of the list `c`; where `.flags` is listed nothing is said of
the flags (the spec draws them, 10_state.md R29); a meaning runs with IPO already after the
instruction, and a frame without `.ipo` says that it stays there. No statement rests on the value of
a draw. -/

open Sys2Proof Sys2Proof.Machine

/-! ## Encoding and decoding -/

/-- A well-formed instruction has an encoding of the length that `Instr.length` gives, and the decoder
reads it back from those bytes, whatever bytes follow (R90, R93, R102, R107, R116). -/
def Obligations.DecodeReadsBackEncode : Prop :=
  ∀ (p : Params) (i : Instr), i.wf p = true →
    ∃ bs, encode p i = some bs ∧ bs.length = i.length p ∧ ∀ rest, decode p (bs ++ rest) = .ok i

/-- Byte strings of the spec decode to the instructions the spec gives them: `LD A, 5`,
`LD A, (0x123456)`, `ADD A, 10`, and `JR` by 0x20 where the variant is 0 (R141, R143, R170, R265). -/
def Obligations.SampleWordsDecode : Prop :=
  ∀ p : Params,
    decode p [0x01, 0x00, 0x00, 0x05] = .ok (.ldRN 0 5) ∧
    decode p [0x01, 0x02, 0x00, 0x12, 0x34, 0x56] = .ok (.ldRAbs 0 0x123456) ∧
    decode p [0x02, 0x00, 0x00, 0x0A] = .ok (.addRN 0 10) ∧
    (p.jrNnn = some 0 → decode p [0x18, 0x00, 0x00, 0x00, 0x20] = .ok (.jrNnn 0x20))

/-- The 178 primary opcodes of R94 decode to nothing and a step on one is the fault
`unassignedOpcode`; every other primary opcode decodes to an instruction. -/
def Obligations.UnassignedOpcodesFault : Prop :=
  ∀ s : State, s.running = true →
    (unassigned (s.instrByte 0).toNat = true → step s = .fault (.unassignedOpcode (s.instrByte 0))) ∧
    (unassigned (s.instrByte 0).toNat = false → ∃ i, decodeAt s.params s.instrByte = .ok i)

/-- Bits 7:5 of every byte that holds a register operand under pattern 1 are ignored: bytes that differ
from those of an instruction in those bits alone, at one of its register bytes (`regBytes`), decode to
the same instruction (R103). For the bytes of float registers this is the model's deduction (log entry
19), as R24 speaks of the low bits by analogy only, and where the register bytes of listed forms stand is
the model's choice (log entries 2 and 37). -/
def Obligations.RegisterByteHighBitsIgnored : Prop :=
  ∀ (p : Params) (i : Instr) (g h : Nat → Byte) (k : Nat), decodeAt p g = .ok i → k ∈ regBytes p i →
    (∀ j, j ≠ k → h j = g j) → (h k).setWidth 5 = (g k).setWidth 5 → decodeAt p h = .ok i

/-! ## The step and the fetch primitives -/

/-- When the bytes at IPO decode to `i` and no multi-byte operand fetch passes 0xFFFFFF, a step of a
running machine is `exec i` with IPO moved past the instruction (R26, R91). -/
def Obligations.StepRunsDecodedInstruction : Prop :=
  ∀ (s : State) (i : Instr), s.running = true → decodeAt s.params s.instrByte = .ok i →
    (∀ x ∈ i.fetches s.params, (s.ipo + BitVec.ofNat 24 x.1).toNat + x.2.bytes ≤ 0x1000000) →
    step s = exec i (s.advance (i.length s.params))

/-- A multi-byte operand fetch that would pass 0xFFFFFF makes the step the fault
`accessCrossesTop` (R65, R92; the spec's decision D8). -/
def Obligations.OperandFetchPastTopFaults : Prop :=
  ∀ (s : State) (i : Instr) (x : Nat × Width), s.running = true →
    decodeAt s.params s.instrByte = .ok i → x ∈ i.fetches s.params →
    0x1000000 < (s.ipo + BitVec.ofNat 24 x.1).toNat + x.2.bytes → step s = .fault .accessCrossesTop

/-- `Fetch8` to `Fetch32` read the big-endian value of the bytes at IPO and move IPO past them, and
the signed fetches read the same bytes as a two's-complement number (R92). -/
def Obligations.FetchReadsAndAdvances : Prop :=
  ∀ (s : State) (w : Width) (k : Nat), (s.ipo + BitVec.ofNat 24 k).toNat + w.bytes ≤ 0x1000000 →
    (s.advance k).fetch w = .ok (be w fun j => s.instrByte (k + j), s.advance (k + w.bytes)) ∧
    (s.advance k).fetchSigned w =
      .ok ((be w fun j => s.instrByte (k + j)).toInt, s.advance (k + w.bytes))

/-! ## Registers and RAM -/

/-- A composite register is the registers in order, the first-named the most significant, register 0
after register 25 (R22; the significance is the spec's decision D2). -/
def Obligations.CompositeIsRegistersInOrder : Prop :=
  ∀ (s : State) (i : RegIx), i.toNat < 26 →
    s.readReg .w16 i = s.readReg .w8 i ++ s.readReg .w8 (regSucc i 1) ∧
    s.readReg .w24 i = s.readReg .w8 i ++ s.readReg .w8 (regSucc i 1) ++ s.readReg .w8 (regSucc i 2) ∧
    s.readReg .w32 i =
      s.readReg .w8 i ++ s.readReg .w8 (regSucc i 1) ++ s.readReg .w8 (regSucc i 2) ++
        s.readReg .w8 (regSucc i 3)

/-- A register operand reads as what was last written to it, each of its registers gets its byte of
the value, and no register outside it changes, in this bank or another (R20, R21, R22). That the
first-named register gets the most significant byte is the spec's decision D2 (DEDUCED, log
entry 15). -/
def Obligations.RegisterWriteReadsBack : Prop :=
  ∀ (s : State) (w : Width) (i : RegIx) (v : BitVec w.bits),
    (s.writeReg w i v).readReg w i = v ∧
    (∀ j, j < w.bytes → Memory.read (s.writeReg w i v).regs (26 * s.rbank.toNat + (i.toNat + j) % 26) =
      (v >>> (8 * (w.bytes - 1 - j))).setWidth 8) ∧
    s.frame (s.writeReg w i v) (s.regLocs w i)

/-- `MemWrite` inside RAM puts the bytes most significant first, changes no other byte, and reads
back (R61, R63, R85). -/
def Obligations.RamWriteIsBigEndian : Prop :=
  ∀ (s : State) (w : Width) (a : Addr) (v : BitVec w.bits), a.toNat + w.bytes ≤ 0x1000000 →
    ∃ t, s.memWrite w a v = .ok t ∧
      (∀ j, j < w.bytes → Memory.read t.ram (a.toNat + j) =
        (v >>> (8 * (w.bytes - 1 - j))).setWidth 8) ∧
      t.memRead w a = .ok v ∧ s.frame t (ramLocs w a)

/-- A read or a write that would pass 0xFFFFFF is the fault `accessCrossesTop`; one of a single byte
never is (R65; the spec's decision D8). -/
def Obligations.AccessPastTopFaults : Prop :=
  ∀ (s : State) (w : Width) (a : Addr) (v : BitVec w.bits) (b : Byte),
    (0x1000000 < a.toNat + w.bytes →
      s.memRead w a = .error .accessCrossesTop ∧ s.memWrite w a v = .error .accessCrossesTop) ∧
    s.memRead .w8 a = .ok (Memory.read s.ram a.toNat) ∧ ∃ t, s.memWrite .w8 a b = .ok t

/-- A byte that `LD (nnn), r` stores at an address of the next instruction is the byte that the next
fetch there returns (R87; the spec's decision D24). -/
def Obligations.StoreIsSeenByNextFetch : Prop :=
  ∀ (s t : State) (src : RegIx) (a : Addr) (k : Nat),
    exec (.ldAbsR src a) s = .next t → t.ipo + BitVec.ofNat 24 k = a →
    t.instrByte k = s.readReg .w8 src

/-- The plain, immediate-offset and 24-bit-register-offset modes: each effective address is the
value of R81, R82 or R83, modulo 2^24. -/
def Obligations.EffectiveAddresses : Prop :=
  ∀ (s : State) (a o : Addr) (b q : RegIx),
    s.ea (.abs a) = .ok a ∧ s.ea (.ind b) = .ok (s.readReg .w24 b) ∧
    (∃ e, s.ea (.absImm a o) = .ok e ∧ e.toNat = (a.toNat + o.toNat) % 2 ^ 24) ∧
    (∃ e, s.ea (.indImm b o) = .ok e ∧ e.toNat = ((s.readReg .w24 b).toNat + o.toNat) % 2 ^ 24) ∧
    (∃ e, s.ea (.absR24 a q) = .ok e ∧ e.toNat = (a.toNat + (s.readReg .w24 q).toNat) % 2 ^ 24) ∧
    (∃ e, s.ea (.indR24 b q) = .ok e ∧
      e.toNat = ((s.readReg .w24 b).toNat + (s.readReg .w24 q).toNat) % 2 ^ 24)

/-- The 8- and 16-bit-register-offset modes (R84): base plus the offset's value modulo 2^24, and the
fault `offsetSignUnknown` where the value is not known (the spec's decision D11). -/
def Obligations.EffectiveAddressOfShortOffsets : Prop :=
  ∀ (s : State) (m : MemOp) (a base : Addr) (b q : RegIx) (o : Option Int),
    ((m = .absR8 a q ∧ base = a ∧ o = offsetValue s.params.offsetSigned (s.readReg .w8 q)) ∨
     (m = .absR16 a q ∧ base = a ∧ o = offsetValue s.params.offsetSigned (s.readReg .w16 q)) ∨
     (m = .indR8 b q ∧ base = s.readReg .w24 b ∧
       o = offsetValue s.params.offsetSigned (s.readReg .w8 q)) ∨
     (m = .indR16 b q ∧ base = s.readReg .w24 b ∧
       o = offsetValue s.params.offsetSigned (s.readReg .w16 q))) →
    (∀ z, o = some z → ∃ e, s.ea m = .ok e ∧ (e.toNat : Int) = ((base.toNat : Int) + z) % 2 ^ 24) ∧
    (o = none → s.ea m = .error .offsetSignUnknown)

/-! ## LD -/

/-- `LD r, n`: the four bytes `01 00 dd nn` decode to it; it completes with the register equal to the
immediate and nothing else changed but the flags (R141); an index of 26 to 31 faults, which is the
spec's decision D3 (R23; DEDUCED, log entry 18). -/
def Obligations.LoadImmediateByte : Prop :=
  ∀ (p : Params) (s : State) (dd n : Byte) (d : RegIx), d = dd.setWidth 5 →
    decode p [0x01, 0x00, dd, n] = .ok (.ldRN d n) ∧ (Instr.ldRN d n).length p = 4 ∧
    (d.toNat < 26 → ∃ t, exec (.ldRN d n) s = .next t ∧ t.readReg .w8 d = n ∧
      s.frame t (.flags :: s.regLocs .w8 d)) ∧
    (26 ≤ d.toNat → exec (.ldRN d n) s = .fault .badRegisterIndex)

/-- `LD r, r`: the four bytes `01 01 dd ss` decode to it; it completes with the destination equal to the
source and nothing else changed but the flags (R142). -/
def Obligations.LoadRegisterByte : Prop :=
  ∀ (p : Params) (s : State) (dd ss : Byte) (d r : RegIx), d = dd.setWidth 5 → r = ss.setWidth 5 →
    decode p [0x01, 0x01, dd, ss] = .ok (.ldRR d r) ∧ (Instr.ldRR d r).length p = 4 ∧
    (d.toNat < 26 → r.toNat < 26 → ∃ t, exec (.ldRR d r) s = .next t ∧
      t.readReg .w8 d = s.readReg .w8 r ∧ s.frame t (.flags :: s.regLocs .w8 d))

/-- The ten LD forms that load a byte from memory (R143 to R152): their bytes decode to them (the layouts
of sub-opcodes 5 and 8 to 11 are inferred, R102, log entry 36), and they complete wherever the effective
address exists, with the register equal to the byte there and nothing else changed but the flags;
where it does not, they stop with the fault `offsetSignUnknown` (R84; the spec's decision D11). -/
def Obligations.LoadByteFromMemory : Prop :=
  (∀ (p : Params) (dd bb qq a1 a2 a3 o1 o2 o3 : Byte),
    decode p [0x01, 2, dd, a1, a2, a3] = .ok (.ldRAbs (dd.setWidth 5) (a1 ++ a2 ++ a3)) ∧
    decode p [0x01, 3, dd, a1, a2, a3, o1, o2, o3] =
      .ok (.ldRAbsImm (dd.setWidth 5) (a1 ++ a2 ++ a3) (o1 ++ o2 ++ o3)) ∧
    decode p [0x01, 4, dd, a1, a2, a3, qq] =
      .ok (.ldRAbsR8 (dd.setWidth 5) (a1 ++ a2 ++ a3) (qq.setWidth 5)) ∧
    decode p [0x01, 5, dd, a1, a2, a3, qq] =
      .ok (.ldRAbsR16 (dd.setWidth 5) (a1 ++ a2 ++ a3) (qq.setWidth 5)) ∧
    decode p [0x01, 6, dd, a1, a2, a3, qq] =
      .ok (.ldRAbsR24 (dd.setWidth 5) (a1 ++ a2 ++ a3) (qq.setWidth 5)) ∧
    decode p [0x01, 7, dd, bb] = .ok (.ldRInd (dd.setWidth 5) (bb.setWidth 5)) ∧
    decode p [0x01, 8, dd, bb, o1, o2, o3] =
      .ok (.ldRIndImm (dd.setWidth 5) (bb.setWidth 5) (o1 ++ o2 ++ o3)) ∧
    decode p [0x01, 9, dd, bb, qq] =
      .ok (.ldRIndR8 (dd.setWidth 5) (bb.setWidth 5) (qq.setWidth 5)) ∧
    decode p [0x01, 10, dd, bb, qq] =
      .ok (.ldRIndR16 (dd.setWidth 5) (bb.setWidth 5) (qq.setWidth 5)) ∧
    decode p [0x01, 11, dd, bb, qq] =
      .ok (.ldRIndR24 (dd.setWidth 5) (bb.setWidth 5) (qq.setWidth 5))) ∧
  ∀ (i : Instr) (s : State) (d : RegIx) (m : MemOp), byteLoad? i = some (d, m) → d.toNat < 26 →
    (∀ q ∈ m.regs, q.toNat < 26) →
    (∀ a, s.ea m = .ok a → ∃ t, exec i s = .next t ∧ t.readReg .w8 d = Memory.read s.ram a.toNat ∧
      s.frame t (.flags :: s.regLocs .w8 d)) ∧
    (∀ f, s.ea m = .error f → f = .offsetSignUnknown ∧ exec i s = .fault f)

/-- LD of a 16-, 24- or 32-bit register from memory: `LD rrr, (rrr)`, whose four bytes are
`01 ss dd bb` with `ss` the parameter (R155), and the listed forms of `LD rr`, `LD rrr` and `LD rrrr`,
whose layouts the model deduces (R140, R154, R156; log entries 2 and 30). They complete with the register
equal to the big-endian value at the effective address; an access past 0xFFFFFF is the fault
`accessCrossesTop` (R65), and an effective address that does not exist the fault `offsetSignUnknown`
(R84). -/
def Obligations.LoadWideFromMemory : Prop :=
  (∀ (p : Params) (ss dd bb : Byte), p.wf = true → p.subopRrrInd = some ss →
    decode p [0x01, ss, dd, bb] = .ok (.ldRrrInd (dd.setWidth 5) (bb.setWidth 5))) ∧
  ∀ (i : Instr) (s : State) (w : Width) (d : RegIx) (m : MemOp),
    (w = .w16 ∧ i = .ldRr (.form (.mem d m)) ∨
     w = .w24 ∧ i = .ldRrr (.form (.mem d m)) ∨
     w = .w32 ∧ i = .ldRrrr (.form (.mem d m)) ∨
     ∃ b, w = .w24 ∧ m = .ind b ∧ i = .ldRrrInd d b) →
    d.toNat < 26 → (∀ q ∈ m.regs, q.toNat < 26) →
    (∀ a, s.ea m = .ok a →
      (a.toNat + w.bytes ≤ 0x1000000 → ∃ t, exec i s = .next t ∧
        t.readReg w d = (be w fun j => Memory.read s.ram (a.toNat + j)) ∧
        s.frame t (.flags :: s.regLocs w d)) ∧
      (0x1000000 < a.toNat + w.bytes → exec i s = .fault .accessCrossesTop)) ∧
    (∀ f, s.ea m = .error f → f = .offsetSignUnknown ∧ exec i s = .fault f)

/-- LD of a 16-, 24- or 32-bit register from an immediate or a register of its width: listed forms
(R140, R154 to R156; log entries 2 and 30). -/
def Obligations.LoadWideImmediateOrRegister : Prop :=
  ∀ (s : State) (d r : RegIx) (v16 : BitVec 16) (v24 : BitVec 24) (v32 : BitVec 32),
    d.toNat < 26 → r.toNat < 26 →
    (∃ t, exec (.ldRr (.form (.imm d v16))) s = .next t ∧ t.readReg .w16 d = v16 ∧
      s.frame t (.flags :: s.regLocs .w16 d)) ∧
    (∃ t, exec (.ldRrr (.form (.imm d v24))) s = .next t ∧ t.readReg .w24 d = v24 ∧
      s.frame t (.flags :: s.regLocs .w24 d)) ∧
    (∃ t, exec (.ldRrrr (.form (.imm d v32))) s = .next t ∧ t.readReg .w32 d = v32 ∧
      s.frame t (.flags :: s.regLocs .w32 d)) ∧
    (∃ t, exec (.ldRr (.form (.reg d r))) s = .next t ∧ t.readReg .w16 d = s.readReg .w16 r ∧
      s.frame t (.flags :: s.regLocs .w16 d)) ∧
    (∃ t, exec (.ldRrr (.form (.reg d r))) s = .next t ∧ t.readReg .w24 d = s.readReg .w24 r ∧
      s.frame t (.flags :: s.regLocs .w24 d)) ∧
    (∃ t, exec (.ldRrrr (.form (.reg d r))) s = .next t ∧ t.readReg .w32 d = s.readReg .w32 r ∧
      s.frame t (.flags :: s.regLocs .w32 d))

/-- LD of a float register from a float register or from memory copies the 32 bits (R24, R67, R140,
R158; listed forms, log entries 2 and 30). From memory, an access past 0xFFFFFF is the fault
`accessCrossesTop` (R65), and an effective address that does not exist the fault `offsetSignUnknown`
(R84). -/
def Obligations.LoadFloat : Prop :=
  ∀ (s : State) (d r : FRegIx) (m : MemOp), d.toNat < 16 → r.toNat < 16 →
    (∃ t, exec (.ldFr (.form (.fr d r))) s = .next t ∧ t.readF d = s.readF r ∧
      s.frame t [.flags, s.fregLoc d]) ∧
    ((∀ q ∈ m.regs, q.toNat < 26) →
      (∀ a, s.ea m = .ok a →
        (a.toNat + 4 ≤ 0x1000000 → ∃ t, exec (.ldFr (.form (.mem d m))) s = .next t ∧
          t.readF d = (be .w32 fun j => Memory.read s.ram (a.toNat + j)) ∧
          s.frame t [.flags, s.fregLoc d]) ∧
        (0x1000000 < a.toNat + 4 →
          exec (.ldFr (.form (.mem d m))) s = .fault .accessCrossesTop)) ∧
      (∀ f, s.ea m = .error f →
        f = .offsetSignUnknown ∧ exec (.ldFr (.form (.mem d m))) s = .fault f))

/-- `LD r, fr` is refused in a model that refuses open forms, as the launch model does (R153); in a model
that runs them, it completes and changes nothing but its destination and the flags; the byte it writes
is free, so nothing is said of it (the model's choice, log entry 5). -/
def Obligations.LoadByteFromFloatWritesOnlyDestination : Prop :=
  ∀ (s : State) (d : RegIx) (f : FRegIx),
    (d.toNat < 26 → f.toNat < 16 → s.params.runOpen = true → ∃ t, exec (.ldRFr d f) s = .next t ∧
      s.frame t (.flags :: s.regLocs .w8 d)) ∧
    (s.params.runOpen = false → exec (.ldRFr d f) s = .refused (.unspecifiedInstruction "LD_r__fr"))

/-- LD to memory from a general register: `LD (nnn), r`, whose six bytes are `01 ss rr aa aa aa` with
`ss` the parameter (R157), and the listed forms of the other modes and widths (log entries 2 and 30). It
stores exactly the operand's bytes at the effective address, most significant first; an access past
0xFFFFFF is the fault `accessCrossesTop` (R65), and an effective address that does not exist the fault
`offsetSignUnknown` (R84). -/
def Obligations.StoreRegister : Prop :=
  (∀ (p : Params) (ss rr a1 a2 a3 : Byte), p.wf = true → p.subopAbsR = some ss →
    decode p [0x01, ss, rr, a1, a2, a3] = .ok (.ldAbsR (rr.setWidth 5) (a1 ++ a2 ++ a3))) ∧
  ∀ (i : Instr) (s : State) (w : Width) (m : MemOp) (src : RegIx),
    (i = .ldMem (.form (.reg w m src)) ∨ ∃ b, w = .w8 ∧ m = .abs b ∧ i = .ldAbsR src b) →
    src.toNat < 26 → (∀ q ∈ m.regs, q.toNat < 26) →
    (∀ a, s.ea m = .ok a →
      (a.toNat + w.bytes ≤ 0x1000000 → ∃ t, exec i s = .next t ∧
        t.memRead w a = .ok (s.readReg w src) ∧ s.frame t (.flags :: ramLocs w a)) ∧
      (0x1000000 < a.toNat + w.bytes → exec i s = .fault .accessCrossesTop)) ∧
    (∀ f, s.ea m = .error f → f = .offsetSignUnknown ∧ exec i s = .fault f)

/-- LD to memory from a float register stores its four bytes, most significant first (R63, R67, R70,
R157; listed forms, log entries 2 and 30); an access past 0xFFFFFF is the fault `accessCrossesTop`
(R65), and an effective address that does not exist the fault `offsetSignUnknown` (R84). -/
def Obligations.StoreFloat : Prop :=
  ∀ (s : State) (m : MemOp) (f : FRegIx), f.toNat < 16 → (∀ q ∈ m.regs, q.toNat < 26) →
    (∀ a, s.ea m = .ok a →
      (a.toNat + 4 ≤ 0x1000000 → ∃ t, exec (.ldMem (.form (.fr m f))) s = .next t ∧
        t.memRead .w32 a = .ok (s.readF f) ∧ s.frame t (.flags :: ramLocs .w32 a)) ∧
      (0x1000000 < a.toNat + 4 → exec (.ldMem (.form (.fr m f))) s = .fault .accessCrossesTop)) ∧
    (∀ e, s.ea m = .error e →
      e = .offsetSignUnknown ∧ exec (.ldMem (.form (.fr m f))) s = .fault e)

/-! ## ADD, SUB, DIV, SDIV -/

/-- `ADD r, n`: the four bytes `02 00 dd nn` decode to it; it leaves the low 8 bits of the sum in its
register and changes nothing else but the flags (R170; keeping the low 8 bits is the spec's decision D7,
log entry 16). -/
def Obligations.AddImmediate : Prop :=
  ∀ (p : Params) (s : State) (dd n : Byte) (d : RegIx), d = dd.setWidth 5 →
    decode p [0x02, 0x00, dd, n] = .ok (.addRN d n) ∧ (Instr.addRN d n).length p = 4 ∧
    (d.toNat < 26 → ∃ t, exec (.addRN d n) s = .next t ∧
      (t.readReg .w8 d).toNat = ((s.readReg .w8 d).toNat + n.toNat) % 256 ∧
      s.frame t (.flags :: s.regLocs .w8 d))

/-- The inferred `_r_*` forms of ADD and SUB (R170, R174; log entry 4). Their bytes are those of LD with
the same sub-opcode (R100, R102, R107), sub-opcode 12 of ADD among them, whose float register byte is
read by its low 5 bits (log entry 19). In a model that opts in to
them: sum and difference modulo 256 in the destination, nothing else changed but the flags, and the
fault of the second operand where it has one; refused in a model that does not, and the form with a
float register always. -/
def Obligations.InferredAddAndSubtract : Prop :=
  (∀ (p : Params) (dd b : Byte) (d : RegIx), d = dd.setWidth 5 →
    decode p [0x02, 1, dd, b] = .ok (.addR (.form (.reg d (b.setWidth 5)))) ∧
    decode p [0x03, 0, dd, b] = .ok (.sub (.form (.imm d b))) ∧
    decode p [0x03, 1, dd, b] = .ok (.sub (.form (.reg d (b.setWidth 5)))) ∧
    decode p [0x02, 12, dd, b] = .ok (.addR (.form (.fr d (b.setWidth 5)))) ∧
    (Instr.addR (.form (.fr d (b.setWidth 5)))).length p = 4) ∧
  (∀ (p : Params) (sub : Byte) (bs : List Byte) (i : Instr) (d : RegIx) (m : MemOp),
    sub.toNat < 12 → decode p (0x01 :: sub :: bs) = .ok i → byteLoad? i = some (d, m) →
    decode p (0x02 :: sub :: bs) = .ok (.addR (.form (.mem d m))) ∧
    decode p (0x03 :: sub :: bs) = .ok (.sub (.form (.mem d m)))) ∧
  ∀ (s : State) (x : ArithForm),
    ((∀ q ∈ arithRegs x, q.toNat < 26) → s.params.optIn = true →
      (∀ v, s.arithSrc x = some (.ok v) →
        (∃ t, exec (.addR (.form x)) s = .next t ∧
          (t.readReg .w8 (arithDest x)).toNat =
            ((s.readReg .w8 (arithDest x)).toNat + v.toNat) % 256 ∧
          s.frame t (.flags :: s.regLocs .w8 (arithDest x))) ∧
        (∃ t, exec (.sub (.form x)) s = .next t ∧
          ((t.readReg .w8 (arithDest x)).toNat : Int) =
            (((s.readReg .w8 (arithDest x)).toNat : Int) - v.toNat) % 256 ∧
          s.frame t (.flags :: s.regLocs .w8 (arithDest x)))) ∧
      (∀ f, s.arithSrc x = some (.error f) →
        exec (.addR (.form x)) s = .fault f ∧ exec (.sub (.form x)) s = .fault f)) ∧
    (s.params.optIn = false ∨ s.arithSrc x = none →
      exec (.addR (.form x)) s = .refused (.unspecifiedInstruction "ADD__sub-opcode_1-243") ∧
      exec (.sub (.form x)) s = .refused (.unspecifiedInstruction "SUB"))

/-- DIV and SDIV with a zero divisor enter the error handler: IPO at the handler's address, ERROR_ID
holds `ERR_ID_DIV0`, and nothing else changes but the flags and the destination, which may hold any
value (R178, R191, R404, R405; the operand roles are the model's, log entry 2). -/
def Obligations.DivideByZeroEntersHandler : Prop :=
  ∀ (s : State) (w : Width) (d r : RegIx) (i : Instr),
    (i = .div (.form ⟨w, d, r⟩) ∨ i = .sdiv (.form ⟨w, d, r⟩)) → d.toNat < 26 → r.toNat < 26 →
    s.readReg w r = 0 → (s.hmemRead 65535).toNat ≤ 0xFFFFFF →
    ∃ t, exec i s = .next t ∧ t.ipo.toNat = (s.hmemRead 65535).toNat ∧
      t.hmemRead 65534 = s.params.errIdDiv0 ∧
      s.frame t (.flags :: .ipo :: .hmem 65534 :: s.regLocs w d)

/-- DIV and SDIV with a divisor that is not zero are refused by name in a model that does not run open
forms, as the launch model does not (R178, R191; the spec's decision D5, and I25). In one that runs them
they complete and change nothing but the destination and the flags, and the quotient is free: the
model's choice (log entry 6), because the spec gives no result. The operand roles are the model's too
(log entry 2). -/
def Obligations.DivideWritesOnlyDestination : Prop :=
  ∀ (s : State) (w : Width) (d r : RegIx) (i : Instr) (mnemonic : String),
    (i = .div (.form ⟨w, d, r⟩) ∧ mnemonic = "DIV" ∨
      i = .sdiv (.form ⟨w, d, r⟩) ∧ mnemonic = "SDIV") →
    d.toNat < 26 → r.toNat < 26 → s.readReg w r ≠ 0 →
    (s.params.runOpen = true → ∃ t, exec i s = .next t ∧ s.frame t (.flags :: s.regLocs w d)) ∧
    (s.params.runOpen = false → exec i s = .refused (.unspecifiedInstruction mnemonic))

/-! ## Control transfer -/

/-- NOP changes nothing, the flags neither, once `SUBOP_PRESENT(0x00)` is supplied, and is refused
while it is not (R260). -/
def Obligations.NopChangesNothing : Prop :=
  ∀ s : State,
    (s.params.subopPresent? 0x00 ≠ none → ∃ t, exec .nop s = .next t ∧ s.frame t []) ∧
    (s.params.subopPresent? 0x00 = none → exec .nop s = .refused (.unspecifiedInstruction "NOP"))

/-- JP and JR, unconditional and conditional: five bytes, `17` or `18`, the byte of the variant and the
condition, and the 24-bit address or offset (R105, R106, R261); IPO at the target when the jump is
taken, at the next instruction when it is not, and nothing else changed but the flags (R261, R264, R265,
R30). That an unconditional form ignores the low 5 bits of its sub-opcode is the spec's decision D34 (log
entry 20, DEDUCED, unsafe). -/
def Obligations.JumpsSetIpo : Prop :=
  (∀ (p : Params) (ss a1 a2 a3 : Byte) (v : BitVec 3), v = ss.extractLsb' 5 3 →
    (p.jpNnn = some v → decode p [0x17, ss, a1, a2, a3] = .ok (.jpNnn (a1 ++ a2 ++ a3))) ∧
    (p.jpNnn ≠ some v → p.jpCond = some v →
      decode p [0x17, ss, a1, a2, a3] = .ok (.jpCond (ss.setWidth 5) (a1 ++ a2 ++ a3))) ∧
    (p.jrNnn = some v → decode p [0x18, ss, a1, a2, a3] = .ok (.jrNnn (a1 ++ a2 ++ a3))) ∧
    (p.jrNnn ≠ some v → p.jrCond = some v →
      decode p [0x18, ss, a1, a2, a3] = .ok (.jrCond (ss.setWidth 5) (a1 ++ a2 ++ a3)))) ∧
  ∀ (s : State) (a : Addr) (k : CondIx) (b : Bool), s.cond k = .ok b →
    (∃ t, exec (.jpNnn a) s = .next t ∧ t.ipo = a ∧ s.frame t [.flags, .ipo]) ∧
    (∃ t, exec (.jrNnn a) s = .next t ∧ (t.ipo.toNat : Int) = relative s.ipo a ∧
      s.frame t [.flags, .ipo]) ∧
    (∃ t, exec (.jpCond k a) s = .next t ∧ t.ipo = (if b then a else s.ipo) ∧
      s.frame t [.flags, .ipo]) ∧
    (∃ t, exec (.jrCond k a) s = .next t ∧
      (t.ipo.toNat : Int) = (if b then relative s.ipo a else s.ipo.toNat) ∧ s.frame t [.flags, .ipo])

/-- CALL and CALLR: five bytes, `15` or `16`, the byte of the variant and the condition, and the 24-bit
address or offset (R105, R106, R261). Taken, with the call stack not full: the address of the next
instruction in entry SPC, SPC one more, IPO at the target, nothing else changed but the flags (R261 to
R263, R270). That an unconditional form ignores the low 5 bits of its sub-opcode is the spec's decision
D34 (log entry 20, DEDUCED, unsafe), and that the address pushed is that of the next instruction its
decision D31. -/
def Obligations.CallsPushReturnAddress : Prop :=
  (∀ (p : Params) (ss a1 a2 a3 : Byte) (v : BitVec 3), v = ss.extractLsb' 5 3 →
    (p.callNnn = some v → decode p [0x15, ss, a1, a2, a3] = .ok (.callNnn (a1 ++ a2 ++ a3))) ∧
    (p.callNnn ≠ some v → p.callCond = some v →
      decode p [0x15, ss, a1, a2, a3] = .ok (.callCond (ss.setWidth 5) (a1 ++ a2 ++ a3))) ∧
    (p.callrNnn = some v → decode p [0x16, ss, a1, a2, a3] = .ok (.callrNnn (a1 ++ a2 ++ a3))) ∧
    (p.callrNnn ≠ some v → p.callrCond = some v →
      decode p [0x16, ss, a1, a2, a3] = .ok (.callrCond (ss.setWidth 5) (a1 ++ a2 ++ a3)))) ∧
  ∀ (s : State) (i : Instr) (a target : Addr) (k : CondIx), s.spc.toNat < 1048576 →
    ((i = .callNnn a ∧ target = a) ∨
     (i = .callCond k a ∧ s.cond k = .ok true ∧ target = a) ∨
     (i = .callrNnn a ∧ (target.toNat : Int) = relative s.ipo a) ∨
     (i = .callrCond k a ∧ s.cond k = .ok true ∧ (target.toNat : Int) = relative s.ipo a)) →
    ∃ t, exec i s = .next t ∧ t.ipo = target ∧ t.spc.toNat = s.spc.toNat + 1 ∧
      t.csRead s.spc.toNat = s.ipo ∧ s.frame t [.flags, .ipo, .spc, .csram s.spc.toNat]

/-- A conditional CALL or CALLR, or a RETIF, whose condition is false only falls through, whatever SPC
is (R261, R272). -/
def Obligations.UntakenCallsAndReturnsFallThrough : Prop :=
  ∀ (s : State) (i : Instr) (a : Addr) (k : CondIx), s.cond k = .ok false →
    (i = .callCond k a ∨ i = .callrCond k a ∨ i = .retif (.form k)) →
    ∃ t, exec i s = .next t ∧ s.frame t [.flags]

/-- CALL or CALLR taken with all 1,048,576 entries in use is the fault `callStackOverflow` (R270,
R409; the spec's decision D13). -/
def Obligations.CallWithFullStackFaults : Prop :=
  ∀ (s : State) (i : Instr) (a : Addr) (k : CondIx), 1048576 ≤ s.spc.toNat →
    (i = .callNnn a ∨ i = .callrNnn a ∨
      s.cond k = .ok true ∧ (i = .callCond k a ∨ i = .callrCond k a)) →
    exec i s = .fault .callStackOverflow

/-- `RetPop()`: a stop when SPC is 0, with nothing else changed; otherwise SPC goes down by one and IPO
is the entry it then points at (R271). -/
def Obligations.RetPopTakesTopEntry : Prop :=
  ∀ s : State,
    (s.spc.toNat = 0 → s.retPop.running = false ∧ s.frame s.retPop [.running]) ∧
    (s.spc.toNat ≠ 0 → s.retPop.spc.toNat = s.spc.toNat - 1 ∧
      s.retPop.ipo = s.csRead (s.spc.toNat - 1) ∧ s.frame s.retPop [.spc, .ipo, .flags])

/-- RET, and RETIF with its condition true, with SPC not 0, complete with IPO at the top entry of the
call stack and SPC one less (R271 to R273; the encoding of RETIF is the model's, log entry 3). -/
def Obligations.ReturnsPopCallStack : Prop :=
  ∀ (s : State) (i : Instr) (k : CondIx), s.spc.toNat ≠ 0 →
    (i = .ret ∧ s.params.subopPresent? 0xFF ≠ none ∨ i = .retif (.form k) ∧ s.cond k = .ok true) →
    ∃ t, exec i s = .next t ∧ t.ipo = s.csRead (s.spc.toNat - 1) ∧
      t.spc.toNat = s.spc.toNat - 1 ∧ s.frame t [.flags, .ipo, .spc]

/-- RET, and RETIF with its condition true, with SPC = 0 stop the computer: RUN is false, nothing
else changes, the error handler is not entered, and no step follows (R407, R408). -/
def Obligations.ReturnWithEmptyStackStops : Prop :=
  ∀ (s : State) (i : Instr) (k : CondIx), s.spc.toNat = 0 →
    (i = .ret ∧ s.params.subopPresent? 0xFF ≠ none ∨ i = .retif (.form k) ∧ s.cond k = .ok true) →
    ∃ t, exec i s = .next t ∧ t.running = false ∧ s.frame t [.running] ∧ step t = .fault .stopped

/-- RET while `SUBOP_PRESENT(0xFF)` is not supplied: with SPC = 0 it stops the computer, IPO then being
free; otherwise it is refused (R273; the spec's decision D26, log entry 29). -/
def Obligations.ReturnOfUnknownLength : Prop :=
  ∀ s : State, s.params.subopPresent? 0xFF = none →
    (s.spc.toNat = 0 → ∃ t, exec .ret s = .next t ∧ t.running = false ∧
      s.frame t [.running, .ipo]) ∧
    (s.spc.toNat ≠ 0 → exec .ret s = .refused (.unspecifiedInstruction "RET"))

/-- A RET right after a CALL or CALLR goes to the instruction after the call with SPC as before it
(R262, R263, R270, R271, R273; the address pushed is the spec's decision D31). -/
def Obligations.ReturnUndoesCall : Prop :=
  ∀ (s t : State) (a : Addr) (i : Instr), (i = .callNnn a ∨ i = .callrNnn a) →
    s.params.subopPresent? 0xFF ≠ none → exec i s = .next t →
    ∃ u, exec .ret t = .next u ∧ u.ipo = s.ipo ∧
      s.frame u [.flags, .csram s.spc.toNat]

/-! ## The register stack -/

/-- PUSH, PUSH16, PUSH24, PUSH32 of a general register, where SPR + n is below 4,194,304: the
operand's bytes at offset SPR of RSRAM, most significant first, SPR n more, nothing else changed but
the flags (R281, R287 to R290; listed forms, log entry 2). -/
def Obligations.PushStoresOperand : Prop :=
  ∀ (s : State) (w : Width) (i : RegIx), i.toNat < 26 → s.spr.toNat + w.bytes < 4194304 →
    ∃ t, exec (pushOf w i) s = .next t ∧ t.spr.toNat = s.spr.toNat + w.bytes ∧
      (∀ j, j < w.bytes → Memory.read t.rsram (s.spr.toNat + j) =
        (s.readReg w i >>> (8 * (w.bytes - 1 - j))).setWidth 8) ∧
      s.frame t (.flags :: .spr :: rsramLocs w s.spr.toNat)

/-- PUSH of every width with SPR + n at least 4,194,304 enters the error handler: nothing is pushed,
SPR keeps its value, only IPO, ERROR_ID and the flags change (R281, R402, R404; the mnemonic of the float
form is the model's choice, log entry 38). -/
def Obligations.PushOverflowEntersHandler : Prop :=
  ∀ (s : State) (w : Width) (i : RegIx) (f : FRegIx) (x : Instr),
    (i.toNat < 26 ∧ x = pushOf w i ∨ f.toNat < 16 ∧ w = .w32 ∧ x = .push32 (.form (.fr f))) →
    4194304 ≤ s.spr.toNat + w.bytes → (s.hmemRead 65535).toNat ≤ 0xFFFFFF →
    ∃ t, exec x s = .next t ∧ t.ipo.toNat = (s.hmemRead 65535).toNat ∧
      s.frame t [.flags, .ipo, .hmem 65534]

/-- POP, POP16, POP24, POP32 of a general register, where SPR is at least n: SPR n less, the register
equal to the n bytes at the new SPR, nothing else changed but the flags (R282 to R286; listed forms,
log entry 2). -/
def Obligations.PopLoadsOperand : Prop :=
  ∀ (s : State) (w : Width) (i : RegIx), i.toNat < 26 → w.bytes ≤ s.spr.toNat →
    ∃ t, exec (popOf w i) s = .next t ∧ t.spr.toNat = s.spr.toNat - w.bytes ∧
      t.readReg w i = (be w fun j => Memory.read s.rsram (s.spr.toNat - w.bytes + j)) ∧
      s.frame t (.flags :: .spr :: s.regLocs w i)

/-- POP of every width with SPR below n enters the error handler: SPR keeps its value, only IPO,
ERROR_ID, the flags and the destination may change (R282, R403, R404; the mnemonic of the float form is the
model's choice, log entry 38). -/
def Obligations.PopUnderflowEntersHandler : Prop :=
  ∀ (s : State) (w : Width) (i : RegIx) (f : FRegIx) (x : Instr) (dest : List Loc),
    (i.toNat < 26 ∧ x = popOf w i ∧ dest = s.regLocs w i ∨
      f.toNat < 16 ∧ w = .w32 ∧ x = .pop32 (.form (.fr f)) ∧ dest = [s.fregLoc f]) →
    s.spr.toNat < w.bytes → (s.hmemRead 65535).toNat ≤ 0xFFFFFF →
    ∃ t, exec x s = .next t ∧ t.ipo.toNat = (s.hmemRead 65535).toNat ∧
      s.frame t (.flags :: .ipo :: .hmem 65534 :: dest)

/-- The push and the pop of a float register move its four bytes (R67, R281, R282, R286, R290). That
they are PUSH32 and POP32 is the model's choice: the spec says that the mnemonic is not in the source
(log entry 38; listed forms, log entry 2). -/
def Obligations.PushAndPopFloat : Prop :=
  ∀ (s : State) (f : FRegIx), f.toNat < 16 →
    (s.spr.toNat + 4 < 4194304 → ∃ t, exec (.push32 (.form (.fr f))) s = .next t ∧
      t.spr.toNat = s.spr.toNat + 4 ∧ t.rsRead .w32 s.spr.toNat = s.readF f ∧
      s.frame t (.flags :: .spr :: rsramLocs .w32 s.spr.toNat)) ∧
    (4 ≤ s.spr.toNat → ∃ t, exec (.pop32 (.form (.fr f))) s = .next t ∧
      t.spr.toNat = s.spr.toNat - 4 ∧ t.readF f = s.rsRead .w32 (s.spr.toNat - 4) ∧
      s.frame t [.flags, .spr, s.fregLoc f])

/-- A POP of the same width right after a PUSH gives its register the pushed value and SPR what it was
(R280 to R282). -/
def Obligations.PopUndoesPush : Prop :=
  ∀ (s t : State) (w : Width) (i d : RegIx), i.toNat < 26 → d.toNat < 26 →
    s.spr.toNat + w.bytes < 4194304 → exec (pushOf w i) s = .next t →
    ∃ u, exec (popOf w d) t = .next u ∧ u.readReg w d = s.readReg w i ∧ u.spr = s.spr

/-! ## System variables -/

/-- SETVAR writes its value to the HMEM entry and changes nothing else but the flags, for the two
named entries always and for the system variables in a model that runs open forms, which the launch model
does not (R329; that SETVAR is the one that writes is general knowledge, log entry 35; listed forms, log
entry 2; the platform's side of a system variable is left out, log entry 7). -/
def Obligations.SetvarWritesEntry : Prop :=
  ∀ (s : State) (x : SetForm) (k : Nat), (∀ q ∈ x.k.regs ++ x.v.regs, q.toNat < 26) →
    k = (s.src32 x.k).toNat → k < 65536 → (65534 ≤ k ∨ s.params.runOpen = true) →
    ∃ t, exec (.setvar (.form x)) s = .next t ∧ t.hmemRead k = s.src32 x.v ∧
      s.frame t [.flags, .hmem k]

/-- GETVAR gives its register the HMEM entry and changes nothing else but the flags, for the same
entries as SETVAR (R330; log entries 2, 7 and 35). -/
def Obligations.GetvarReadsEntry : Prop :=
  ∀ (s : State) (x : GetForm) (k : Nat), (∀ q ∈ x.d :: x.k.regs, q.toNat < 26) →
    k = (s.src32 x.k).toNat → k < 65536 → (65534 ≤ k ∨ s.params.runOpen = true) →
    ∃ t, exec (.getvar (.form x)) s = .next t ∧ t.readReg .w32 x.d = s.hmemRead k ∧
      s.frame t (.flags :: s.regLocs .w32 x.d)

/-- An HMEM index above 65,535 is refused, and so is a system variable in a model that does not run
open forms (R34, R68, R329, R330; log entries 7 and 32). -/
def Obligations.HmemIndexRefused : Prop :=
  ∀ (s : State) (x : SetForm) (y : GetForm), (∀ q ∈ x.k.regs ++ x.v.regs, q.toNat < 26) →
    (∀ q ∈ y.d :: y.k.regs, q.toNat < 26) → y.k = x.k →
    (65536 ≤ (s.src32 x.k).toNat → exec (.setvar (.form x)) s = .refused .hmemIndexAboveRange ∧
      exec (.getvar (.form y)) s = .refused .hmemIndexAboveRange) ∧
    ((s.src32 x.k).toNat < 65534 → s.params.runOpen = false →
      exec (.setvar (.form x)) s = .refused .systemVariable ∧
      exec (.getvar (.form y)) s = .refused .systemVariable)

/-! ## Errors, conditions, indices -/

/-- Error entry for every cause: IPO at the handler's address, ERROR_ID holding `ERR_ID_DIV0` after a
zero divisor, nothing changed but IPO, ERROR_ID and the flags; the fault `badHandlerAddress` where
the handler's address is above 0xFFFFFF (R404, R406; the spec's decisions D15, D16). -/
def Obligations.ErrorEntry : Prop :=
  ∀ (s : State) (kind : ErrorKind),
    ((s.hmemRead 65535).toNat ≤ 0xFFFFFF → ∃ t, s.raiseError kind = .ok t ∧
      t.ipo.toNat = (s.hmemRead 65535).toNat ∧
      (kind = .divZero → t.hmemRead 65534 = s.params.errIdDiv0) ∧
      t.running = s.running ∧ s.frame t [.flags, .ipo, .hmem 65534]) ∧
    (0xFFFFFF < (s.hmemRead 65535).toNat → s.raiseError kind = .error .badHandlerAddress)

/-- An error raised while the handler's address is above 0xFFFFFF is the fault `badHandlerAddress`: by
PUSH and POP of every width and of a float register, and by DIV and SDIV (R401, R404; the spec's decision
D15; the mnemonic of a float push or pop is the model's choice, log entry 38). -/
def Obligations.BadHandlerAddressFaults : Prop :=
  ∀ (s : State) (w : Width) (i r : RegIx) (f : FRegIx), i.toNat < 26 → r.toNat < 26 → f.toNat < 16 →
    0xFFFFFF < (s.hmemRead 65535).toNat →
    (4194304 ≤ s.spr.toNat + w.bytes → exec (pushOf w i) s = .fault .badHandlerAddress) ∧
    (s.spr.toNat < w.bytes → exec (popOf w i) s = .fault .badHandlerAddress) ∧
    (4194304 ≤ s.spr.toNat + 4 → exec (.push32 (.form (.fr f))) s = .fault .badHandlerAddress) ∧
    (s.spr.toNat < 4 → exec (.pop32 (.form (.fr f))) s = .fault .badHandlerAddress) ∧
    (s.readReg w r = 0 → exec (.div (.form ⟨w, i, r⟩)) s = .fault .badHandlerAddress ∧
      exec (.sdiv (.form ⟨w, i, r⟩)) s = .fault .badHandlerAddress)

/-- `cond(c)`: the flag false for 0 to 7, the flag true for 8 to 15, the fault `badConditionIndex` for
16 to 31, which every conditional instruction then is (R30; the fault is the spec's decision D3). -/
def Obligations.ConditionIndex : Prop :=
  ∀ (s : State) (i : Instr) (c : CondIx), condIx? i = some c →
    (c.toNat < 8 → s.cond c = .ok (!s.flags.getLsbD c.toNat)) ∧
    (8 ≤ c.toNat → c.toNat < 16 → s.cond c = .ok (s.flags.getLsbD (c.toNat - 8))) ∧
    (16 ≤ c.toNat → exec i s = .fault .badConditionIndex)

/-- An instruction that names a general register by an index of 26 to 31 is the fault
`badRegisterIndex`, before anything else it may do (R23, R410; the spec's decision D3). An inferred form
of ADD or SUB is so in a model that opts in to it, and `LD r, fr` in a model that runs open forms; they
are refused in the others (`InferredAddAndSubtract`, `LoadByteFromFloatWritesOnlyDestination`). -/
def Obligations.BadRegisterIndexFaults : Prop :=
  ∀ (s : State) (i : Instr) (q : RegIx), q ∈ regIxs i → 26 ≤ q.toNat →
    ((∃ x, i = .addR (.form x) ∨ i = .sub (.form x)) → s.params.optIn = true) →
    ((∃ d f, i = .ldRFr d f) → s.params.runOpen = true) → exec i s = .fault .badRegisterIndex

/-- An instruction whose general register indices are good and that names a float register by an
index above 15 is the fault `badFloatRegisterIndex` (R24; the spec's decision D3). `LD r, fr` is so in a
model that runs open forms; it is refused in the others. -/
def Obligations.BadFloatRegisterIndexFaults : Prop :=
  ∀ (s : State) (i : Instr) (f : FRegIx), (∀ q ∈ regIxs i, q.toNat < 26) → f ∈ fregIxs i →
    16 ≤ f.toNat → ((∃ d e, i = .ldRFr d e) → s.params.runOpen = true) →
    exec i s = .fault .badFloatRegisterIndex

/-! ## Instructions that stop -/

/-- LD, ADD and SUB with a sub-opcode that names no constant are the fault `undefinedSubopcode`
(R109, R158, R170; the spec's decision D27), and the bytes decode to those rows. -/
def Obligations.UndefinedSubopcodesFault : Prop :=
  ∀ (p : Params) (s : State) (sub : Byte) (rest : List Byte), 244 ≤ sub.toNat → p.wf = true →
    (decode p (0x01 :: sub :: rest) = .ok (.ldUndef sub) ∧
      exec (.ldUndef sub) s = .fault (.undefinedSubopcode sub)) ∧
    (decode p (0x02 :: sub :: rest) = .ok (.addUndef sub) ∧
      exec (.addUndef sub) s = .fault (.undefinedSubopcode sub)) ∧
    (decode p (0x03 :: sub :: rest) = .ok (.subUndef sub) ∧
      exec (.subUndef sub) s = .fault (.undefinedSubopcode sub))

/-- A form whose sub-opcode byte the parameters do not list is refused (R154 to R158, R170, R174,
R178, R191, R283 to R290, R329, R330, R272: "refuse(unspecified_instruction)"). -/
def Obligations.UnlistedFormsRefused : Prop :=
  ∀ (s : State) (b : Byte),
    exec (.ldRr (.unlisted b)) s = .refused (.unspecifiedInstruction "LD_rr") ∧
    exec (.ldRrr (.unlisted b)) s = .refused (.unspecifiedInstruction "LD_rrr") ∧
    exec (.ldRrrr (.unlisted b)) s = .refused (.unspecifiedInstruction "LD_rrrr") ∧
    exec (.ldMem (.unlisted b)) s = .refused (.unspecifiedInstruction "LD") ∧
    exec (.ldFr (.unlisted b)) s = .refused (.unspecifiedInstruction "LD_fr") ∧
    exec (.addR (.unlisted b)) s = .refused (.unspecifiedInstruction "ADD__sub-opcode_1-243") ∧
    exec (.sub (.unlisted b)) s = .refused (.unspecifiedInstruction "SUB") ∧
    exec (.div (.unlisted b)) s = .refused (.unspecifiedInstruction "DIV") ∧
    exec (.sdiv (.unlisted b)) s = .refused (.unspecifiedInstruction "SDIV") ∧
    exec (.pop (.unlisted b)) s = .refused (.unspecifiedInstruction "POP") ∧
    exec (.pop16 (.unlisted b)) s = .refused (.unspecifiedInstruction "POP16") ∧
    exec (.pop24 (.unlisted b)) s = .refused (.unspecifiedInstruction "POP24") ∧
    exec (.pop32 (.unlisted b)) s = .refused (.unspecifiedInstruction "POP32") ∧
    exec (.push (.unlisted b)) s = .refused (.unspecifiedInstruction "PUSH") ∧
    exec (.push16 (.unlisted b)) s = .refused (.unspecifiedInstruction "PUSH16") ∧
    exec (.push24 (.unlisted b)) s = .refused (.unspecifiedInstruction "PUSH24") ∧
    exec (.push32 (.unlisted b)) s = .refused (.unspecifiedInstruction "PUSH32") ∧
    exec (.setvar (.unlisted b)) s = .refused (.unspecifiedInstruction "SETVAR") ∧
    exec (.getvar (.unlisted b)) s = .refused (.unspecifiedInstruction "GETVAR") ∧
    exec (.retif (.unlisted b)) s = .refused (.unspecifiedInstruction "RETIF")

/-- The arithmetic, logic, shift and bit instructions to which the spec gives no operands and no effect
("Pseudocode: none can be given", R171 to R173, R175 to R177, R179 to R190, R192, R200 to R238) are
refused by name (R109). -/
def Obligations.UnspecifiedArithmeticAndLogicRefused : Prop :=
  ∀ (s : State) (b : Byte) (v : BitVec 3) (k : BitVec 5),
    exec (.add16 b) s = .refused (.unspecifiedInstruction "ADD16") ∧
    exec (.add24 b) s = .refused (.unspecifiedInstruction "ADD24") ∧
    exec (.add32 b) s = .refused (.unspecifiedInstruction "ADD32") ∧
    exec (.sub16 b) s = .refused (.unspecifiedInstruction "SUB16") ∧
    exec (.sub24 b) s = .refused (.unspecifiedInstruction "SUB24") ∧
    exec (.sub32 b) s = .refused (.unspecifiedInstruction "SUB32") ∧
    exec (.mul b) s = .refused (.unspecifiedInstruction "MUL") ∧
    exec (.inc b) s = .refused (.unspecifiedInstruction "INC") ∧
    exec (.inc16 b) s = .refused (.unspecifiedInstruction "INC16") ∧
    exec (.inc24 b) s = .refused (.unspecifiedInstruction "INC24") ∧
    exec (.inc32 b) s = .refused (.unspecifiedInstruction "INC32") ∧
    exec (.dec b) s = .refused (.unspecifiedInstruction "DEC") ∧
    exec (.dec16 b) s = .refused (.unspecifiedInstruction "DEC16") ∧
    exec (.dec24 b) s = .refused (.unspecifiedInstruction "DEC24") ∧
    exec (.dec32 b) s = .refused (.unspecifiedInstruction "DEC32") ∧
    exec (.rand b) s = .refused (.unspecifiedInstruction "RAND") ∧
    exec (.min b) s = .refused (.unspecifiedInstruction "MIN") ∧
    exec (.max b) s = .refused (.unspecifiedInstruction "MAX") ∧
    exec (.smul b) s = .refused (.unspecifiedInstruction "SMUL") ∧
    exec (.sl b) s = .refused (.unspecifiedInstruction "SL") ∧
    exec (.sr b) s = .refused (.unspecifiedInstruction "SR") ∧
    exec (.rl b) s = .refused (.unspecifiedInstruction "RL") ∧
    exec (.rr b) s = .refused (.unspecifiedInstruction "RR") ∧
    exec (.set b) s = .refused (.unspecifiedInstruction "SET") ∧
    exec (.res b) s = .refused (.unspecifiedInstruction "RES") ∧
    exec (.bit b) s = .refused (.unspecifiedInstruction "BIT") ∧
    exec (.and b) s = .refused (.unspecifiedInstruction "AND") ∧
    exec (.and16 b) s = .refused (.unspecifiedInstruction "AND16") ∧
    exec (.and24 b) s = .refused (.unspecifiedInstruction "AND24") ∧
    exec (.and32 b) s = .refused (.unspecifiedInstruction "AND32") ∧
    exec (.or b) s = .refused (.unspecifiedInstruction "OR") ∧
    exec (.or16 b) s = .refused (.unspecifiedInstruction "OR16") ∧
    exec (.or24 b) s = .refused (.unspecifiedInstruction "OR24") ∧
    exec (.or32 b) s = .refused (.unspecifiedInstruction "OR32") ∧
    exec (.xor b) s = .refused (.unspecifiedInstruction "XOR") ∧
    exec (.xor16 b) s = .refused (.unspecifiedInstruction "XOR16") ∧
    exec (.xor24 b) s = .refused (.unspecifiedInstruction "XOR24") ∧
    exec (.xor32 b) s = .refused (.unspecifiedInstruction "XOR32") ∧
    exec (.inv b) s = .refused (.unspecifiedInstruction "INV") ∧
    exec (.imply v k) s = .refused (.unspecifiedInstruction "IMPLY") ∧
    exec (.imply16 v k) s = .refused (.unspecifiedInstruction "IMPLY16") ∧
    exec (.imply24 v k) s = .refused (.unspecifiedInstruction "IMPLY24") ∧
    exec (.imply32 v k) s = .refused (.unspecifiedInstruction "IMPLY32") ∧
    exec (.nand b) s = .refused (.unspecifiedInstruction "NAND") ∧
    exec (.nand16 b) s = .refused (.unspecifiedInstruction "NAND16") ∧
    exec (.nand24 b) s = .refused (.unspecifiedInstruction "NAND24") ∧
    exec (.nand32 b) s = .refused (.unspecifiedInstruction "NAND32") ∧
    exec (.nor b) s = .refused (.unspecifiedInstruction "NOR") ∧
    exec (.nor16 b) s = .refused (.unspecifiedInstruction "NOR16") ∧
    exec (.nor24 b) s = .refused (.unspecifiedInstruction "NOR24") ∧
    exec (.nor32 b) s = .refused (.unspecifiedInstruction "NOR32") ∧
    exec (.xnor b) s = .refused (.unspecifiedInstruction "XNOR") ∧
    exec (.xnor16 b) s = .refused (.unspecifiedInstruction "XNOR16") ∧
    exec (.xnor24 b) s = .refused (.unspecifiedInstruction "XNOR24") ∧
    exec (.xnor32 b) s = .refused (.unspecifiedInstruction "XNOR32") ∧
    exec (.getbits b) s = .refused (.unspecifiedInstruction "GETBITS") ∧
    exec (.setbits b) s = .refused (.unspecifiedInstruction "SETBITS")

/-- The variants of CALL, CALLR, JP and JR that the spec does not describe (R261), DJNZ (R266 to
R269), the compare, exchange and flag instructions (R251 to R257) and the register bank and block
instructions (R291 to R294) are refused by name (R109). -/
def Obligations.UnspecifiedControlAndStackRefused : Prop :=
  ∀ (s : State) (b : Byte) (v : BitVec 3) (k : BitVec 5),
    exec (.callOther v k) s = .refused (.unspecifiedInstruction "CALL__other_variants") ∧
    exec (.callrOther v k) s = .refused (.unspecifiedInstruction "CALLR__other_variants") ∧
    exec (.jpOther v k) s = .refused (.unspecifiedInstruction "JP__other_variants") ∧
    exec (.jrOther v k) s = .refused (.unspecifiedInstruction "JR__other_variants") ∧
    exec (.djnz b) s = .refused (.unspecifiedInstruction "DJNZ") ∧
    exec (.djnz16 b) s = .refused (.unspecifiedInstruction "DJNZ16") ∧
    exec (.djnz24 b) s = .refused (.unspecifiedInstruction "DJNZ24") ∧
    exec (.djnz32 b) s = .refused (.unspecifiedInstruction "DJNZ32") ∧
    exec (.ex v k) s = .refused (.unspecifiedInstruction "EX") ∧
    exec (.cp v k) s = .refused (.unspecifiedInstruction "CP") ∧
    exec (.setf b) s = .refused (.unspecifiedInstruction "SETF") ∧
    exec (.resf b) s = .refused (.unspecifiedInstruction "RESF") ∧
    exec (.invf b) s = .refused (.unspecifiedInstruction "INVF") ∧
    exec (.ldf b) s = .refused (.unspecifiedInstruction "LDF") ∧
    exec (.scp b) s = .refused (.unspecifiedInstruction "SCP") ∧
    exec (.regs b) s = .refused (.unspecifiedInstruction "REGS") ∧
    exec (.ldregs b) s = .refused (.unspecifiedInstruction "LDREGS") ∧
    exec (.stregs b) s = .refused (.unspecifiedInstruction "STREGS") ∧
    exec (.fregs b) s = .refused (.unspecifiedInstruction "FREGS")

/-- The floating-point and mathematical instructions (R301 to R312) and the system, block, video,
sound and colour instructions (R321 to R328, R331 to R336) are refused by name (R109). -/
def Obligations.UnspecifiedFloatAndSystemRefused : Prop :=
  ∀ (s : State) (b : Byte),
    exec (.pow b) s = .refused (.unspecifiedInstruction "POW") ∧
    exec (.sqr b) s = .refused (.unspecifiedInstruction "SQR") ∧
    exec (.cbr b) s = .refused (.unspecifiedInstruction "CBR") ∧
    exec (.isqr b) s = .refused (.unspecifiedInstruction "ISQR") ∧
    exec (.isgn b) s = .refused (.unspecifiedInstruction "ISGN") ∧
    exec (.sin b) s = .refused (.unspecifiedInstruction "SIN") ∧
    exec (.cos b) s = .refused (.unspecifiedInstruction "COS") ∧
    exec (.tan b) s = .refused (.unspecifiedInstruction "TAN") ∧
    exec (.abs b) s = .refused (.unspecifiedInstruction "ABS") ∧
    exec (.round b) s = .refused (.unspecifiedInstruction "ROUND") ∧
    exec (.floor b) s = .refused (.unspecifiedInstruction "FLOOR") ∧
    exec (.ceil b) s = .refused (.unspecifiedInstruction "CEIL") ∧
    exec (.int b) s = .refused (.unspecifiedInstruction "INT") ∧
    exec (.wait b) s = .refused (.unspecifiedInstruction "WAIT") ∧
    exec (.vdl b) s = .refused (.unspecifiedInstruction "VDL") ∧
    exec (.vcl b) s = .refused (.unspecifiedInstruction "VCL") ∧
    exec (.find b) s = .refused (.unspecifiedInstruction "FIND") ∧
    exec (.memf b) s = .refused (.unspecifiedInstruction "MEMF") ∧
    exec (.memc b) s = .refused (.unspecifiedInstruction "MEMC") ∧
    exec (.play b) s = .refused (.unspecifiedInstruction "PLAY") ∧
    exec (.rgb2hsl b) s = .refused (.unspecifiedInstruction "RGB2HSL") ∧
    exec (.hsl2rgb b) s = .refused (.unspecifiedInstruction "HSL2RGB") ∧
    exec (.rgb2hsb b) s = .refused (.unspecifiedInstruction "RGB2HSB") ∧
    exec (.hsb2rgb b) s = .refused (.unspecifiedInstruction "HSB2RGB") ∧
    exec (.debug b) s = .refused (.unspecifiedInstruction "DEBUG") ∧
    exec (.brk b) s = .refused (.unspecifiedInstruction "BREAK")

/-! ## Launch and the whole machine -/

/-- Launch (R114, R440, R443; the spec's decision D28). Blocks that lie within 0x000000..0xFFFFFF and of
which no two share a byte are loaded: their bytes stand in RAM at their origins, SPR and SPC are 0, IPO
is `RUN_ADDRESS`, the computer runs, and everything else is as it was, which `s` leaves arbitrary (R42);
the invariant is kept. Any other set of blocks is refused. The state after reset is a launch with no
block loaded; `RUN_ADDRESS` being 0 there is the model's choice (log entry 11). -/
def Obligations.LaunchValues : Prop :=
  State.reset.launch [] = .next State.reset ∧
  ∀ (s : State) (bs : List Block) (good : Prop),
    (good ↔ (∀ b ∈ bs, b.origin < 0x1000000 ∧ b.origin + b.bytes.length ≤ 0x1000000) ∧
      bs.Pairwise fun b c => ∀ i j, i < b.bytes.length → j < c.bytes.length →
        b.origin + i ≠ c.origin + j) →
    (good → ∃ t, s.launch bs = .next t ∧ t.spr = 0 ∧ t.spc = 0 ∧ t.running = true ∧
      t.ipo = s.params.runAddress ∧
      (∀ b ∈ bs, ∀ (j : Nat) (v : Byte), b.bytes[j]? = some v →
        Memory.read t.ram (b.origin + j) = v) ∧
      s.frame t (.spr :: .spc :: .running :: .ipo ::
        bs.flatMap fun b => (List.range b.bytes.length).map fun j => .ram (b.origin + j)) ∧
      (s.Inv → t.Inv)) ∧
    (¬ good → s.launch bs = .refused .badLoadImage)

/-- The launch state satisfies the invariant `State.Inv`. -/
def Obligations.ResetSatisfiesInvariant : Prop := State.reset.Inv

/-- Every step keeps the invariant: the memories stay in canonical form and within their sizes, SPR
stays at most 4,194,303 (R281), SPC at most 1,048,576 (R28), the parameters well formed. -/
def Obligations.StepKeepsInvariant : Prop :=
  ∀ s t : State, s.Inv → step s = .next t → t.Inv

/-- The four memories, the two stack pointers, RUN and the bank selectors change only by the
instructions that the spec lets reach them: RSRAM and SPR by PUSH and POP, SPC by CALL, CALLR, RET
and RETIF, CSRAM by CALL and CALLR, HMEM by SETVAR and error entry, RAM by LD with a memory
destination, RUN by RET and RETIF with SPC = 0, RBANK and FBANK by none (R21, R25, R27, R28, R32,
R33, R37, R60). -/
def Obligations.MemoriesChangeOnlyByTheirInstructions : Prop :=
  ∀ (i : Instr) (s t : State), exec i s = .next t →
    (usesRsram i = false → t.rsram = s.rsram ∧ t.spr = s.spr) ∧
    (isCall i = false → t.csram = s.csram ∧ (isReturn i = false → t.spc = s.spc)) ∧
    (writesHmem i = false → t.hmem = s.hmem) ∧
    (writesRam i = false → t.ram = s.ram) ∧
    (isReturn i = false ∨ s.spc ≠ 0 → t.running = s.running) ∧
    t.rbank = s.rbank ∧ t.fbank = s.fbank ∧ t.params = s.params
end

