-- ==== Sys2Proof/Laws/State.lean ====
section
/-! SUPPORT. One lemma per field per update of the state, true by `rfl`, so that no proof unfolds a
record update. -/

namespace Sys2Proof.Machine

/-! ## `writeReg` -/

@[simp] theorem State.writeReg_regs (s : State) (w : Width) (i : RegIx) (v : BitVec w.bits) :
    (s.writeReg w i v).regs = Memory.writeSeq s.regs (regKey s.rbank i) (byteOf w v) w.bytes := rfl

@[simp] theorem State.writeReg_rbank (s : State) (w : Width) (i : RegIx) (v : BitVec w.bits) :
    (s.writeReg w i v).rbank = s.rbank := rfl

@[simp] theorem State.writeReg_fregs (s : State) (w : Width) (i : RegIx) (v : BitVec w.bits) :
    (s.writeReg w i v).fregs = s.fregs := rfl

@[simp] theorem State.writeReg_fbank (s : State) (w : Width) (i : RegIx) (v : BitVec w.bits) :
    (s.writeReg w i v).fbank = s.fbank := rfl

@[simp] theorem State.writeReg_ipo (s : State) (w : Width) (i : RegIx) (v : BitVec w.bits) :
    (s.writeReg w i v).ipo = s.ipo := rfl

@[simp] theorem State.writeReg_spr (s : State) (w : Width) (i : RegIx) (v : BitVec w.bits) :
    (s.writeReg w i v).spr = s.spr := rfl

@[simp] theorem State.writeReg_spc (s : State) (w : Width) (i : RegIx) (v : BitVec w.bits) :
    (s.writeReg w i v).spc = s.spc := rfl

@[simp] theorem State.writeReg_flags (s : State) (w : Width) (i : RegIx) (v : BitVec w.bits) :
    (s.writeReg w i v).flags = s.flags := rfl

@[simp] theorem State.writeReg_ram (s : State) (w : Width) (i : RegIx) (v : BitVec w.bits) :
    (s.writeReg w i v).ram = s.ram := rfl

@[simp] theorem State.writeReg_rsram (s : State) (w : Width) (i : RegIx) (v : BitVec w.bits) :
    (s.writeReg w i v).rsram = s.rsram := rfl

@[simp] theorem State.writeReg_csram (s : State) (w : Width) (i : RegIx) (v : BitVec w.bits) :
    (s.writeReg w i v).csram = s.csram := rfl

@[simp] theorem State.writeReg_hmem (s : State) (w : Width) (i : RegIx) (v : BitVec w.bits) :
    (s.writeReg w i v).hmem = s.hmem := rfl

@[simp] theorem State.writeReg_running (s : State) (w : Width) (i : RegIx) (v : BitVec w.bits) :
    (s.writeReg w i v).running = s.running := rfl

@[simp] theorem State.writeReg_draws (s : State) (w : Width) (i : RegIx) (v : BitVec w.bits) :
    (s.writeReg w i v).draws = s.draws := rfl

@[simp] theorem State.writeReg_params (s : State) (w : Width) (i : RegIx) (v : BitVec w.bits) :
    (s.writeReg w i v).params = s.params := rfl

/-! ## `writeF` -/

@[simp] theorem State.writeF_regs (s : State) (f : FRegIx) (v : Word32) :
    (s.writeF f v).regs = s.regs := rfl

@[simp] theorem State.writeF_rbank (s : State) (f : FRegIx) (v : Word32) :
    (s.writeF f v).rbank = s.rbank := rfl

@[simp] theorem State.writeF_fregs (s : State) (f : FRegIx) (v : Word32) :
    (s.writeF f v).fregs = Memory.write s.fregs (fregKey s.fbank f) v := rfl

@[simp] theorem State.writeF_fbank (s : State) (f : FRegIx) (v : Word32) :
    (s.writeF f v).fbank = s.fbank := rfl

@[simp] theorem State.writeF_ipo (s : State) (f : FRegIx) (v : Word32) :
    (s.writeF f v).ipo = s.ipo := rfl

@[simp] theorem State.writeF_spr (s : State) (f : FRegIx) (v : Word32) :
    (s.writeF f v).spr = s.spr := rfl

@[simp] theorem State.writeF_spc (s : State) (f : FRegIx) (v : Word32) :
    (s.writeF f v).spc = s.spc := rfl

@[simp] theorem State.writeF_flags (s : State) (f : FRegIx) (v : Word32) :
    (s.writeF f v).flags = s.flags := rfl

@[simp] theorem State.writeF_ram (s : State) (f : FRegIx) (v : Word32) :
    (s.writeF f v).ram = s.ram := rfl

@[simp] theorem State.writeF_rsram (s : State) (f : FRegIx) (v : Word32) :
    (s.writeF f v).rsram = s.rsram := rfl

@[simp] theorem State.writeF_csram (s : State) (f : FRegIx) (v : Word32) :
    (s.writeF f v).csram = s.csram := rfl

@[simp] theorem State.writeF_hmem (s : State) (f : FRegIx) (v : Word32) :
    (s.writeF f v).hmem = s.hmem := rfl

@[simp] theorem State.writeF_running (s : State) (f : FRegIx) (v : Word32) :
    (s.writeF f v).running = s.running := rfl

@[simp] theorem State.writeF_draws (s : State) (f : FRegIx) (v : Word32) :
    (s.writeF f v).draws = s.draws := rfl

@[simp] theorem State.writeF_params (s : State) (f : FRegIx) (v : Word32) :
    (s.writeF f v).params = s.params := rfl

/-! ## `rsWrite` -/

@[simp] theorem State.rsWrite_regs (s : State) (w : Width) (off : Nat) (v : BitVec w.bits) :
    (s.rsWrite w off v).regs = s.regs := rfl

@[simp] theorem State.rsWrite_rbank (s : State) (w : Width) (off : Nat) (v : BitVec w.bits) :
    (s.rsWrite w off v).rbank = s.rbank := rfl

@[simp] theorem State.rsWrite_fregs (s : State) (w : Width) (off : Nat) (v : BitVec w.bits) :
    (s.rsWrite w off v).fregs = s.fregs := rfl

@[simp] theorem State.rsWrite_fbank (s : State) (w : Width) (off : Nat) (v : BitVec w.bits) :
    (s.rsWrite w off v).fbank = s.fbank := rfl

@[simp] theorem State.rsWrite_ipo (s : State) (w : Width) (off : Nat) (v : BitVec w.bits) :
    (s.rsWrite w off v).ipo = s.ipo := rfl

@[simp] theorem State.rsWrite_spr (s : State) (w : Width) (off : Nat) (v : BitVec w.bits) :
    (s.rsWrite w off v).spr = s.spr := rfl

@[simp] theorem State.rsWrite_spc (s : State) (w : Width) (off : Nat) (v : BitVec w.bits) :
    (s.rsWrite w off v).spc = s.spc := rfl

@[simp] theorem State.rsWrite_flags (s : State) (w : Width) (off : Nat) (v : BitVec w.bits) :
    (s.rsWrite w off v).flags = s.flags := rfl

@[simp] theorem State.rsWrite_ram (s : State) (w : Width) (off : Nat) (v : BitVec w.bits) :
    (s.rsWrite w off v).ram = s.ram := rfl

@[simp] theorem State.rsWrite_rsram (s : State) (w : Width) (off : Nat) (v : BitVec w.bits) :
    (s.rsWrite w off v).rsram = Memory.writeSeq s.rsram (off + ·) (byteOf w v) w.bytes := rfl

@[simp] theorem State.rsWrite_csram (s : State) (w : Width) (off : Nat) (v : BitVec w.bits) :
    (s.rsWrite w off v).csram = s.csram := rfl

@[simp] theorem State.rsWrite_hmem (s : State) (w : Width) (off : Nat) (v : BitVec w.bits) :
    (s.rsWrite w off v).hmem = s.hmem := rfl

@[simp] theorem State.rsWrite_running (s : State) (w : Width) (off : Nat) (v : BitVec w.bits) :
    (s.rsWrite w off v).running = s.running := rfl

@[simp] theorem State.rsWrite_draws (s : State) (w : Width) (off : Nat) (v : BitVec w.bits) :
    (s.rsWrite w off v).draws = s.draws := rfl

@[simp] theorem State.rsWrite_params (s : State) (w : Width) (off : Nat) (v : BitVec w.bits) :
    (s.rsWrite w off v).params = s.params := rfl

/-! ## `csWrite` -/

@[simp] theorem State.csWrite_regs (s : State) (k : Nat) (a : Addr) :
    (s.csWrite k a).regs = s.regs := rfl

@[simp] theorem State.csWrite_rbank (s : State) (k : Nat) (a : Addr) :
    (s.csWrite k a).rbank = s.rbank := rfl

@[simp] theorem State.csWrite_fregs (s : State) (k : Nat) (a : Addr) :
    (s.csWrite k a).fregs = s.fregs := rfl

@[simp] theorem State.csWrite_fbank (s : State) (k : Nat) (a : Addr) :
    (s.csWrite k a).fbank = s.fbank := rfl

@[simp] theorem State.csWrite_ipo (s : State) (k : Nat) (a : Addr) :
    (s.csWrite k a).ipo = s.ipo := rfl

@[simp] theorem State.csWrite_spr (s : State) (k : Nat) (a : Addr) :
    (s.csWrite k a).spr = s.spr := rfl

@[simp] theorem State.csWrite_spc (s : State) (k : Nat) (a : Addr) :
    (s.csWrite k a).spc = s.spc := rfl

@[simp] theorem State.csWrite_flags (s : State) (k : Nat) (a : Addr) :
    (s.csWrite k a).flags = s.flags := rfl

@[simp] theorem State.csWrite_ram (s : State) (k : Nat) (a : Addr) :
    (s.csWrite k a).ram = s.ram := rfl

@[simp] theorem State.csWrite_rsram (s : State) (k : Nat) (a : Addr) :
    (s.csWrite k a).rsram = s.rsram := rfl

@[simp] theorem State.csWrite_csram (s : State) (k : Nat) (a : Addr) :
    (s.csWrite k a).csram = Memory.write s.csram k a := rfl

@[simp] theorem State.csWrite_hmem (s : State) (k : Nat) (a : Addr) :
    (s.csWrite k a).hmem = s.hmem := rfl

@[simp] theorem State.csWrite_running (s : State) (k : Nat) (a : Addr) :
    (s.csWrite k a).running = s.running := rfl

@[simp] theorem State.csWrite_draws (s : State) (k : Nat) (a : Addr) :
    (s.csWrite k a).draws = s.draws := rfl

@[simp] theorem State.csWrite_params (s : State) (k : Nat) (a : Addr) :
    (s.csWrite k a).params = s.params := rfl

/-! ## `hmemWrite` -/

@[simp] theorem State.hmemWrite_regs (s : State) (k : Nat) (v : Word32) :
    (s.hmemWrite k v).regs = s.regs := rfl

@[simp] theorem State.hmemWrite_rbank (s : State) (k : Nat) (v : Word32) :
    (s.hmemWrite k v).rbank = s.rbank := rfl

@[simp] theorem State.hmemWrite_fregs (s : State) (k : Nat) (v : Word32) :
    (s.hmemWrite k v).fregs = s.fregs := rfl

@[simp] theorem State.hmemWrite_fbank (s : State) (k : Nat) (v : Word32) :
    (s.hmemWrite k v).fbank = s.fbank := rfl

@[simp] theorem State.hmemWrite_ipo (s : State) (k : Nat) (v : Word32) :
    (s.hmemWrite k v).ipo = s.ipo := rfl

@[simp] theorem State.hmemWrite_spr (s : State) (k : Nat) (v : Word32) :
    (s.hmemWrite k v).spr = s.spr := rfl

@[simp] theorem State.hmemWrite_spc (s : State) (k : Nat) (v : Word32) :
    (s.hmemWrite k v).spc = s.spc := rfl

@[simp] theorem State.hmemWrite_flags (s : State) (k : Nat) (v : Word32) :
    (s.hmemWrite k v).flags = s.flags := rfl

@[simp] theorem State.hmemWrite_ram (s : State) (k : Nat) (v : Word32) :
    (s.hmemWrite k v).ram = s.ram := rfl

@[simp] theorem State.hmemWrite_rsram (s : State) (k : Nat) (v : Word32) :
    (s.hmemWrite k v).rsram = s.rsram := rfl

@[simp] theorem State.hmemWrite_csram (s : State) (k : Nat) (v : Word32) :
    (s.hmemWrite k v).csram = s.csram := rfl

@[simp] theorem State.hmemWrite_hmem (s : State) (k : Nat) (v : Word32) :
    (s.hmemWrite k v).hmem = Memory.write s.hmem k v := rfl

@[simp] theorem State.hmemWrite_running (s : State) (k : Nat) (v : Word32) :
    (s.hmemWrite k v).running = s.running := rfl

@[simp] theorem State.hmemWrite_draws (s : State) (k : Nat) (v : Word32) :
    (s.hmemWrite k v).draws = s.draws := rfl

@[simp] theorem State.hmemWrite_params (s : State) (k : Nat) (v : Word32) :
    (s.hmemWrite k v).params = s.params := rfl

/-! ## `advance` -/

@[simp] theorem State.advance_regs (s : State) (n : Nat) :
    (s.advance n).regs = s.regs := rfl

@[simp] theorem State.advance_rbank (s : State) (n : Nat) :
    (s.advance n).rbank = s.rbank := rfl

@[simp] theorem State.advance_fregs (s : State) (n : Nat) :
    (s.advance n).fregs = s.fregs := rfl

@[simp] theorem State.advance_fbank (s : State) (n : Nat) :
    (s.advance n).fbank = s.fbank := rfl

@[simp] theorem State.advance_ipo (s : State) (n : Nat) :
    (s.advance n).ipo = s.ipo + BitVec.ofNat 24 n := rfl

@[simp] theorem State.advance_spr (s : State) (n : Nat) :
    (s.advance n).spr = s.spr := rfl

@[simp] theorem State.advance_spc (s : State) (n : Nat) :
    (s.advance n).spc = s.spc := rfl

@[simp] theorem State.advance_flags (s : State) (n : Nat) :
    (s.advance n).flags = s.flags := rfl

@[simp] theorem State.advance_ram (s : State) (n : Nat) :
    (s.advance n).ram = s.ram := rfl

@[simp] theorem State.advance_rsram (s : State) (n : Nat) :
    (s.advance n).rsram = s.rsram := rfl

@[simp] theorem State.advance_csram (s : State) (n : Nat) :
    (s.advance n).csram = s.csram := rfl

@[simp] theorem State.advance_hmem (s : State) (n : Nat) :
    (s.advance n).hmem = s.hmem := rfl

@[simp] theorem State.advance_running (s : State) (n : Nat) :
    (s.advance n).running = s.running := rfl

@[simp] theorem State.advance_draws (s : State) (n : Nat) :
    (s.advance n).draws = s.draws := rfl

@[simp] theorem State.advance_params (s : State) (n : Nat) :
    (s.advance n).params = s.params := rfl

/-! ## `jump` -/

@[simp] theorem State.jump_regs (s : State) (a : Addr) :
    (s.jump a).regs = s.regs := rfl

@[simp] theorem State.jump_rbank (s : State) (a : Addr) :
    (s.jump a).rbank = s.rbank := rfl

@[simp] theorem State.jump_fregs (s : State) (a : Addr) :
    (s.jump a).fregs = s.fregs := rfl

@[simp] theorem State.jump_fbank (s : State) (a : Addr) :
    (s.jump a).fbank = s.fbank := rfl

@[simp] theorem State.jump_ipo (s : State) (a : Addr) :
    (s.jump a).ipo = a := rfl

@[simp] theorem State.jump_spr (s : State) (a : Addr) :
    (s.jump a).spr = s.spr := rfl

@[simp] theorem State.jump_spc (s : State) (a : Addr) :
    (s.jump a).spc = s.spc := rfl

@[simp] theorem State.jump_flags (s : State) (a : Addr) :
    (s.jump a).flags = s.flags := rfl

@[simp] theorem State.jump_ram (s : State) (a : Addr) :
    (s.jump a).ram = s.ram := rfl

@[simp] theorem State.jump_rsram (s : State) (a : Addr) :
    (s.jump a).rsram = s.rsram := rfl

@[simp] theorem State.jump_csram (s : State) (a : Addr) :
    (s.jump a).csram = s.csram := rfl

@[simp] theorem State.jump_hmem (s : State) (a : Addr) :
    (s.jump a).hmem = s.hmem := rfl

@[simp] theorem State.jump_running (s : State) (a : Addr) :
    (s.jump a).running = s.running := rfl

@[simp] theorem State.jump_draws (s : State) (a : Addr) :
    (s.jump a).draws = s.draws := rfl

@[simp] theorem State.jump_params (s : State) (a : Addr) :
    (s.jump a).params = s.params := rfl

/-! ## `drawNext` -/

@[simp] theorem State.drawNext_regs (s : State) :
    (s.drawNext).regs = s.regs := rfl

@[simp] theorem State.drawNext_rbank (s : State) :
    (s.drawNext).rbank = s.rbank := rfl

@[simp] theorem State.drawNext_fregs (s : State) :
    (s.drawNext).fregs = s.fregs := rfl

@[simp] theorem State.drawNext_fbank (s : State) :
    (s.drawNext).fbank = s.fbank := rfl

@[simp] theorem State.drawNext_ipo (s : State) :
    (s.drawNext).ipo = s.ipo := rfl

@[simp] theorem State.drawNext_spr (s : State) :
    (s.drawNext).spr = s.spr := rfl

@[simp] theorem State.drawNext_spc (s : State) :
    (s.drawNext).spc = s.spc := rfl

@[simp] theorem State.drawNext_flags (s : State) :
    (s.drawNext).flags = s.flags := rfl

@[simp] theorem State.drawNext_ram (s : State) :
    (s.drawNext).ram = s.ram := rfl

@[simp] theorem State.drawNext_rsram (s : State) :
    (s.drawNext).rsram = s.rsram := rfl

@[simp] theorem State.drawNext_csram (s : State) :
    (s.drawNext).csram = s.csram := rfl

@[simp] theorem State.drawNext_hmem (s : State) :
    (s.drawNext).hmem = s.hmem := rfl

@[simp] theorem State.drawNext_running (s : State) :
    (s.drawNext).running = s.running := rfl

@[simp] theorem State.drawNext_draws (s : State) :
    (s.drawNext).draws = s.draws + 1 := rfl

@[simp] theorem State.drawNext_params (s : State) :
    (s.drawNext).params = s.params := rfl

/-! ## `drawFlags` -/

@[simp] theorem State.drawFlags_regs (s : State) :
    (s.drawFlags).regs = s.regs := rfl

@[simp] theorem State.drawFlags_rbank (s : State) :
    (s.drawFlags).rbank = s.rbank := rfl

@[simp] theorem State.drawFlags_fregs (s : State) :
    (s.drawFlags).fregs = s.fregs := rfl

@[simp] theorem State.drawFlags_fbank (s : State) :
    (s.drawFlags).fbank = s.fbank := rfl

@[simp] theorem State.drawFlags_ipo (s : State) :
    (s.drawFlags).ipo = s.ipo := rfl

@[simp] theorem State.drawFlags_spr (s : State) :
    (s.drawFlags).spr = s.spr := rfl

@[simp] theorem State.drawFlags_spc (s : State) :
    (s.drawFlags).spc = s.spc := rfl

@[simp] theorem State.drawFlags_flags (s : State) :
    (s.drawFlags).flags = s.drawn.setWidth 8 := rfl

@[simp] theorem State.drawFlags_ram (s : State) :
    (s.drawFlags).ram = s.ram := rfl

@[simp] theorem State.drawFlags_rsram (s : State) :
    (s.drawFlags).rsram = s.rsram := rfl

@[simp] theorem State.drawFlags_csram (s : State) :
    (s.drawFlags).csram = s.csram := rfl

@[simp] theorem State.drawFlags_hmem (s : State) :
    (s.drawFlags).hmem = s.hmem := rfl

@[simp] theorem State.drawFlags_running (s : State) :
    (s.drawFlags).running = s.running := rfl

@[simp] theorem State.drawFlags_draws (s : State) :
    (s.drawFlags).draws = s.draws + 1 := rfl

@[simp] theorem State.drawFlags_params (s : State) :
    (s.drawFlags).params = s.params := rfl

/-! ## `stop` -/

@[simp] theorem State.stop_regs (s : State) :
    (s.stop).regs = s.regs := rfl

@[simp] theorem State.stop_rbank (s : State) :
    (s.stop).rbank = s.rbank := rfl

@[simp] theorem State.stop_fregs (s : State) :
    (s.stop).fregs = s.fregs := rfl

@[simp] theorem State.stop_fbank (s : State) :
    (s.stop).fbank = s.fbank := rfl

@[simp] theorem State.stop_ipo (s : State) :
    (s.stop).ipo = s.ipo := rfl

@[simp] theorem State.stop_spr (s : State) :
    (s.stop).spr = s.spr := rfl

@[simp] theorem State.stop_spc (s : State) :
    (s.stop).spc = s.spc := rfl

@[simp] theorem State.stop_flags (s : State) :
    (s.stop).flags = s.flags := rfl

@[simp] theorem State.stop_ram (s : State) :
    (s.stop).ram = s.ram := rfl

@[simp] theorem State.stop_rsram (s : State) :
    (s.stop).rsram = s.rsram := rfl

@[simp] theorem State.stop_csram (s : State) :
    (s.stop).csram = s.csram := rfl

@[simp] theorem State.stop_hmem (s : State) :
    (s.stop).hmem = s.hmem := rfl

@[simp] theorem State.stop_running (s : State) :
    (s.stop).running = false := rfl

@[simp] theorem State.stop_draws (s : State) :
    (s.stop).draws = s.draws := rfl

@[simp] theorem State.stop_params (s : State) :
    (s.stop).params = s.params := rfl

/-! ## `drawReg` -/

@[simp] theorem State.drawReg_regs (s : State) (w : Width) (i : RegIx) :
    (s.drawReg w i).regs = Memory.writeSeq s.regs (regKey s.rbank i) (byteOf w (s.drawn.setWidth w.bits)) w.bytes := rfl

@[simp] theorem State.drawReg_rbank (s : State) (w : Width) (i : RegIx) :
    (s.drawReg w i).rbank = s.rbank := rfl

@[simp] theorem State.drawReg_fregs (s : State) (w : Width) (i : RegIx) :
    (s.drawReg w i).fregs = s.fregs := rfl

@[simp] theorem State.drawReg_fbank (s : State) (w : Width) (i : RegIx) :
    (s.drawReg w i).fbank = s.fbank := rfl

@[simp] theorem State.drawReg_ipo (s : State) (w : Width) (i : RegIx) :
    (s.drawReg w i).ipo = s.ipo := rfl

@[simp] theorem State.drawReg_spr (s : State) (w : Width) (i : RegIx) :
    (s.drawReg w i).spr = s.spr := rfl

@[simp] theorem State.drawReg_spc (s : State) (w : Width) (i : RegIx) :
    (s.drawReg w i).spc = s.spc := rfl

@[simp] theorem State.drawReg_flags (s : State) (w : Width) (i : RegIx) :
    (s.drawReg w i).flags = s.flags := rfl

@[simp] theorem State.drawReg_ram (s : State) (w : Width) (i : RegIx) :
    (s.drawReg w i).ram = s.ram := rfl

@[simp] theorem State.drawReg_rsram (s : State) (w : Width) (i : RegIx) :
    (s.drawReg w i).rsram = s.rsram := rfl

@[simp] theorem State.drawReg_csram (s : State) (w : Width) (i : RegIx) :
    (s.drawReg w i).csram = s.csram := rfl

@[simp] theorem State.drawReg_hmem (s : State) (w : Width) (i : RegIx) :
    (s.drawReg w i).hmem = s.hmem := rfl

@[simp] theorem State.drawReg_running (s : State) (w : Width) (i : RegIx) :
    (s.drawReg w i).running = s.running := rfl

@[simp] theorem State.drawReg_draws (s : State) (w : Width) (i : RegIx) :
    (s.drawReg w i).draws = s.draws + 1 := rfl

@[simp] theorem State.drawReg_params (s : State) (w : Width) (i : RegIx) :
    (s.drawReg w i).params = s.params := rfl

/-! ## `drawF` -/

@[simp] theorem State.drawF_regs (s : State) (f : FRegIx) :
    (s.drawF f).regs = s.regs := rfl

@[simp] theorem State.drawF_rbank (s : State) (f : FRegIx) :
    (s.drawF f).rbank = s.rbank := rfl

@[simp] theorem State.drawF_fregs (s : State) (f : FRegIx) :
    (s.drawF f).fregs = Memory.write s.fregs (fregKey s.fbank f) s.drawn := rfl

@[simp] theorem State.drawF_fbank (s : State) (f : FRegIx) :
    (s.drawF f).fbank = s.fbank := rfl

@[simp] theorem State.drawF_ipo (s : State) (f : FRegIx) :
    (s.drawF f).ipo = s.ipo := rfl

@[simp] theorem State.drawF_spr (s : State) (f : FRegIx) :
    (s.drawF f).spr = s.spr := rfl

@[simp] theorem State.drawF_spc (s : State) (f : FRegIx) :
    (s.drawF f).spc = s.spc := rfl

@[simp] theorem State.drawF_flags (s : State) (f : FRegIx) :
    (s.drawF f).flags = s.flags := rfl

@[simp] theorem State.drawF_ram (s : State) (f : FRegIx) :
    (s.drawF f).ram = s.ram := rfl

@[simp] theorem State.drawF_rsram (s : State) (f : FRegIx) :
    (s.drawF f).rsram = s.rsram := rfl

@[simp] theorem State.drawF_csram (s : State) (f : FRegIx) :
    (s.drawF f).csram = s.csram := rfl

@[simp] theorem State.drawF_hmem (s : State) (f : FRegIx) :
    (s.drawF f).hmem = s.hmem := rfl

@[simp] theorem State.drawF_running (s : State) (f : FRegIx) :
    (s.drawF f).running = s.running := rfl

@[simp] theorem State.drawF_draws (s : State) (f : FRegIx) :
    (s.drawF f).draws = s.draws + 1 := rfl

@[simp] theorem State.drawF_params (s : State) (f : FRegIx) :
    (s.drawF f).params = s.params := rfl

/-! ## `rsPushed` -/

@[simp] theorem State.rsPushed_regs (s : State) (w : Width) (v : BitVec w.bits) :
    (s.rsPushed w v).regs = s.regs := rfl

@[simp] theorem State.rsPushed_rbank (s : State) (w : Width) (v : BitVec w.bits) :
    (s.rsPushed w v).rbank = s.rbank := rfl

@[simp] theorem State.rsPushed_fregs (s : State) (w : Width) (v : BitVec w.bits) :
    (s.rsPushed w v).fregs = s.fregs := rfl

@[simp] theorem State.rsPushed_fbank (s : State) (w : Width) (v : BitVec w.bits) :
    (s.rsPushed w v).fbank = s.fbank := rfl

@[simp] theorem State.rsPushed_ipo (s : State) (w : Width) (v : BitVec w.bits) :
    (s.rsPushed w v).ipo = s.ipo := rfl

@[simp] theorem State.rsPushed_spr (s : State) (w : Width) (v : BitVec w.bits) :
    (s.rsPushed w v).spr = s.spr + BitVec.ofNat 24 w.bytes := rfl

@[simp] theorem State.rsPushed_spc (s : State) (w : Width) (v : BitVec w.bits) :
    (s.rsPushed w v).spc = s.spc := rfl

@[simp] theorem State.rsPushed_flags (s : State) (w : Width) (v : BitVec w.bits) :
    (s.rsPushed w v).flags = s.flags := rfl

@[simp] theorem State.rsPushed_ram (s : State) (w : Width) (v : BitVec w.bits) :
    (s.rsPushed w v).ram = s.ram := rfl

@[simp] theorem State.rsPushed_rsram (s : State) (w : Width) (v : BitVec w.bits) :
    (s.rsPushed w v).rsram = Memory.writeSeq s.rsram (s.spr.toNat + ·) (byteOf w v) w.bytes := rfl

@[simp] theorem State.rsPushed_csram (s : State) (w : Width) (v : BitVec w.bits) :
    (s.rsPushed w v).csram = s.csram := rfl

@[simp] theorem State.rsPushed_hmem (s : State) (w : Width) (v : BitVec w.bits) :
    (s.rsPushed w v).hmem = s.hmem := rfl

@[simp] theorem State.rsPushed_running (s : State) (w : Width) (v : BitVec w.bits) :
    (s.rsPushed w v).running = s.running := rfl

@[simp] theorem State.rsPushed_draws (s : State) (w : Width) (v : BitVec w.bits) :
    (s.rsPushed w v).draws = s.draws := rfl

@[simp] theorem State.rsPushed_params (s : State) (w : Width) (v : BitVec w.bits) :
    (s.rsPushed w v).params = s.params := rfl

/-! ## `rsDropped` -/

@[simp] theorem State.rsDropped_regs (s : State) (w : Width) :
    (s.rsDropped w).regs = s.regs := rfl

@[simp] theorem State.rsDropped_rbank (s : State) (w : Width) :
    (s.rsDropped w).rbank = s.rbank := rfl

@[simp] theorem State.rsDropped_fregs (s : State) (w : Width) :
    (s.rsDropped w).fregs = s.fregs := rfl

@[simp] theorem State.rsDropped_fbank (s : State) (w : Width) :
    (s.rsDropped w).fbank = s.fbank := rfl

@[simp] theorem State.rsDropped_ipo (s : State) (w : Width) :
    (s.rsDropped w).ipo = s.ipo := rfl

@[simp] theorem State.rsDropped_spr (s : State) (w : Width) :
    (s.rsDropped w).spr = s.spr - BitVec.ofNat 24 w.bytes := rfl

@[simp] theorem State.rsDropped_spc (s : State) (w : Width) :
    (s.rsDropped w).spc = s.spc := rfl

@[simp] theorem State.rsDropped_flags (s : State) (w : Width) :
    (s.rsDropped w).flags = s.flags := rfl

@[simp] theorem State.rsDropped_ram (s : State) (w : Width) :
    (s.rsDropped w).ram = s.ram := rfl

@[simp] theorem State.rsDropped_rsram (s : State) (w : Width) :
    (s.rsDropped w).rsram = s.rsram := rfl

@[simp] theorem State.rsDropped_csram (s : State) (w : Width) :
    (s.rsDropped w).csram = s.csram := rfl

@[simp] theorem State.rsDropped_hmem (s : State) (w : Width) :
    (s.rsDropped w).hmem = s.hmem := rfl

@[simp] theorem State.rsDropped_running (s : State) (w : Width) :
    (s.rsDropped w).running = s.running := rfl

@[simp] theorem State.rsDropped_draws (s : State) (w : Width) :
    (s.rsDropped w).draws = s.draws := rfl

@[simp] theorem State.rsDropped_params (s : State) (w : Width) :
    (s.rsDropped w).params = s.params := rfl

/-! ## `writeErrorId` -/

@[simp] theorem State.writeErrorId_regs (s : State) (kind : ErrorKind) :
    (s.writeErrorId kind).regs = s.regs := by cases kind <;> rfl

@[simp] theorem State.writeErrorId_rbank (s : State) (kind : ErrorKind) :
    (s.writeErrorId kind).rbank = s.rbank := by cases kind <;> rfl

@[simp] theorem State.writeErrorId_fregs (s : State) (kind : ErrorKind) :
    (s.writeErrorId kind).fregs = s.fregs := by cases kind <;> rfl

@[simp] theorem State.writeErrorId_fbank (s : State) (kind : ErrorKind) :
    (s.writeErrorId kind).fbank = s.fbank := by cases kind <;> rfl

@[simp] theorem State.writeErrorId_ipo (s : State) (kind : ErrorKind) :
    (s.writeErrorId kind).ipo = s.ipo := by cases kind <;> rfl

@[simp] theorem State.writeErrorId_spr (s : State) (kind : ErrorKind) :
    (s.writeErrorId kind).spr = s.spr := by cases kind <;> rfl

@[simp] theorem State.writeErrorId_spc (s : State) (kind : ErrorKind) :
    (s.writeErrorId kind).spc = s.spc := by cases kind <;> rfl

@[simp] theorem State.writeErrorId_flags (s : State) (kind : ErrorKind) :
    (s.writeErrorId kind).flags = s.flags := by cases kind <;> rfl

@[simp] theorem State.writeErrorId_ram (s : State) (kind : ErrorKind) :
    (s.writeErrorId kind).ram = s.ram := by cases kind <;> rfl

@[simp] theorem State.writeErrorId_rsram (s : State) (kind : ErrorKind) :
    (s.writeErrorId kind).rsram = s.rsram := by cases kind <;> rfl

@[simp] theorem State.writeErrorId_csram (s : State) (kind : ErrorKind) :
    (s.writeErrorId kind).csram = s.csram := by cases kind <;> rfl

@[simp] theorem State.writeErrorId_running (s : State) (kind : ErrorKind) :
    (s.writeErrorId kind).running = s.running := by cases kind <;> rfl

@[simp] theorem State.writeErrorId_params (s : State) (kind : ErrorKind) :
    (s.writeErrorId kind).params = s.params := by cases kind <;> rfl

end Sys2Proof.Machine
end

