-- ==== Sys2Proof/Laws/Memory.lean ====
section
/-! SUPPORT. The memories as data: what a read sees after a write, and that every write keeps the
canonical form. -/

namespace Sys2Proof.Machine

variable {w : Nat}

/-! ## Reading after writing -/

theorem Memory.read_erase (m : Memory w) (a b : Nat) :
    Memory.read (Memory.erase m a) b = if a = b then 0 else Memory.read m b := by
  induction m with
  | nil => simp [Memory.erase, Memory.read]
  | cons c r ih =>
    unfold Memory.erase
    split
    · rw [ih, Memory.read]
      split <;> simp_all
    · rw [Memory.read, Memory.read, ih]
      by_cases hb : c.1 = b
      · rw [if_pos hb, if_pos hb, if_neg (by omega)]
      · rw [if_neg hb, if_neg hb]

/-- The memory lists no cell with the key. -/
theorem Memory.erase_lacks (m : Memory w) (a : Nat) : ∀ c ∈ Memory.erase m a, c.1 ≠ a := by
  induction m with
  | nil => simp [Memory.erase]
  | cons c r ih =>
    unfold Memory.erase
    split
    · exact ih
    · intro d hd
      rcases List.mem_cons.1 hd with rfl | hd
      · assumption
      · exact ih d hd

theorem Memory.read_insert (m : Memory w) (a b : Nat) (v : BitVec w) (h : ∀ c ∈ m, c.1 ≠ a) :
    Memory.read (Memory.insert m a v) b = if a = b then v else Memory.read m b := by
  induction m with
  | nil => simp [Memory.insert, Memory.read]
  | cons c r ih =>
    have hr : ∀ c ∈ r, c.1 ≠ a := fun d hd => h d (List.mem_cons_of_mem _ hd)
    have hc : c.1 ≠ a := h c List.mem_cons_self
    unfold Memory.insert
    split
    · simp [Memory.read]
    · simp only [Memory.read, ih hr]
      by_cases hb : a = b
      · simp_all
      · simp [hb]

/-- A read after a write: the written cell holds the value, every other cell what it held. -/
theorem Memory.read_write (m : Memory w) (a b : Nat) (v : BitVec w) :
    Memory.read (Memory.write m a v) b = if a = b then v else Memory.read m b := by
  unfold Memory.write
  split
  · simp_all [Memory.read_erase]
  · rw [Memory.read_insert _ _ _ _ (Memory.erase_lacks m a), Memory.read_erase]
    split <;> simp_all

/-- A cell that a sequence of writes does not reach. -/
theorem Memory.read_writeSeq_off (m : Memory 8) (key : Nat → Nat) (b : Nat → Byte) (a n : Nat)
    (h : ∀ j < n, key j ≠ a) : Memory.read (Memory.writeSeq m key b n) a = Memory.read m a := by
  induction n with
  | zero => rfl
  | succ n ih =>
    rw [Memory.writeSeq, Memory.read_write, if_neg (h n (by omega)), ih fun j hj => h j (by omega)]

/-- A cell that a sequence of writes to different keys reaches. -/
theorem Memory.read_writeSeq_on (m : Memory 8) (key : Nat → Nat) (b : Nat → Byte) (n j : Nat)
    (hj : j < n) (h : ∀ i < n, ∀ k < n, key i = key k → i = k) :
    Memory.read (Memory.writeSeq m key b n) (key j) = b j := by
  induction n with
  | zero => omega
  | succ n ih =>
    rw [Memory.writeSeq, Memory.read_write]
    by_cases e : n = j
    · simp [e]
    · rw [if_neg fun hk => e (h n (by omega) j hj hk)]
      exact ih (by omega) fun i hi k hk => h i (by omega) k (by omega)

/-! ## The canonical form -/

theorem Memory.wfFrom_mono {size lo lo' : Nat} (h : lo' ≤ lo) :
    ∀ {m : Memory w}, Memory.wfFrom size lo m = true → Memory.wfFrom size lo' m = true
  | [], _ => rfl
  | c :: r, hm => by
    simp only [Memory.wfFrom, Bool.and_eq_true, decide_eq_true_eq] at hm ⊢
    exact ⟨⟨⟨by omega, hm.1.1.2⟩, hm.1.2⟩, hm.2⟩

theorem Memory.wfFrom_erase {size : Nat} (a : Nat) :
    ∀ {m : Memory w} {lo : Nat}, Memory.wfFrom size lo m = true →
      Memory.wfFrom size lo (Memory.erase m a) = true
  | [], _, _ => rfl
  | c :: r, lo, hm => by
    simp only [Memory.wfFrom, Bool.and_eq_true, decide_eq_true_eq] at hm
    unfold Memory.erase
    split
    · exact Memory.wfFrom_mono (by omega) (Memory.wfFrom_erase a hm.2)
    · simp only [Memory.wfFrom, Bool.and_eq_true, decide_eq_true_eq]
      exact ⟨hm.1, Memory.wfFrom_erase a hm.2⟩

theorem Memory.wfFrom_insert {size a : Nat} {v : BitVec w} (ha : a < size) (hv : v ≠ 0) :
    ∀ {m : Memory w} {lo : Nat}, Memory.wfFrom size lo m = true → lo ≤ a → (∀ c ∈ m, c.1 ≠ a) →
      Memory.wfFrom size lo (Memory.insert m a v) = true
  | [], lo, _, hlo, _ => by
    simpa [Memory.insert, Memory.wfFrom, hlo, ha] using hv
  | c :: r, lo, hm, hlo, hne => by
    have hm' := hm
    simp only [Memory.wfFrom, Bool.and_eq_true, decide_eq_true_eq] at hm
    have hc : c.1 ≠ a := hne c List.mem_cons_self
    unfold Memory.insert
    split
    · simp only [Memory.wfFrom, Bool.and_eq_true, decide_eq_true_eq]
      exact ⟨⟨⟨hlo, ha⟩, by simpa using hv⟩, ⟨⟨by omega, hm.1.1.2⟩, hm.1.2⟩, hm.2⟩
    · simp only [Memory.wfFrom, Bool.and_eq_true, decide_eq_true_eq]
      exact ⟨hm.1, Memory.wfFrom_insert ha hv hm.2 (by omega)
        fun d hd => hne d (List.mem_cons_of_mem _ hd)⟩

/-- A write inside the memory keeps its canonical form. -/
theorem Memory.wf_write {size a : Nat} {v : BitVec w} {m : Memory w} (hm : Memory.wf size m = true)
    (ha : a < size) : Memory.wf size (Memory.write m a v) = true := by
  unfold Memory.write
  split
  · exact Memory.wfFrom_erase a hm
  · exact Memory.wfFrom_insert ha ‹_› (Memory.wfFrom_erase a hm) (by omega) (Memory.erase_lacks m a)

/-- A sequence of writes inside the memory keeps its canonical form. -/
theorem Memory.wf_writeSeq {size : Nat} {m : Memory 8} {key : Nat → Nat} {b : Nat → Byte}
    (hm : Memory.wf size m = true) : ∀ {n : Nat}, (∀ j < n, key j < size) →
      Memory.wf size (Memory.writeSeq m key b n) = true
  | 0, _ => hm
  | n + 1, hk => Memory.wf_write (Memory.wf_writeSeq hm fun j hj => hk j (by omega)) (hk n (by omega))

/-- A cell past the end of a memory in canonical form is unlisted. -/
theorem Memory.read_of_size_le {size a : Nat} (ha : size ≤ a) :
    ∀ {m : Memory w} {lo : Nat}, Memory.wfFrom size lo m = true → Memory.read m a = 0
  | [], _, _ => rfl
  | c :: r, lo, hm => by
    simp only [Memory.wfFrom, Bool.and_eq_true, decide_eq_true_eq] at hm
    rw [Memory.read, if_neg (by omega)]
    exact Memory.read_of_size_le ha hm.2

theorem Memory.read_below {size lo a : Nat} (ha : a < lo) :
    ∀ {m : Memory w}, Memory.wfFrom size lo m = true → Memory.read m a = 0
  | [], _ => rfl
  | c :: r, hm => by
    simp only [Memory.wfFrom, Bool.and_eq_true, decide_eq_true_eq] at hm
    rw [Memory.read, if_neg (by omega)]
    exact Memory.read_below (by omega) hm.2

/-- Two memories in canonical form that read the same are equal. -/
theorem Memory.ext_of_wf {size : Nat} : ∀ {m m' : Memory w} {lo : Nat},
    Memory.wfFrom size lo m = true → Memory.wfFrom size lo m' = true →
      (∀ a, Memory.read m a = Memory.read m' a) → m = m'
  | [], [], _, _, _, _ => rfl
  | [], c :: r, _, _, h', hr => by
    simp only [Memory.wfFrom, Bool.and_eq_true, decide_eq_true_eq, bne_iff_ne] at h'
    have := hr c.1; simp [Memory.read] at this; exact absurd this.symm h'.1.2
  | c :: r, [], _, h, _, hr => by
    simp only [Memory.wfFrom, Bool.and_eq_true, decide_eq_true_eq, bne_iff_ne] at h
    have := hr c.1; simp [Memory.read] at this; exact absurd this h.1.2
  | c :: r, c' :: r', lo, h, h', hr => by
    simp only [Memory.wfFrom, Bool.and_eq_true, decide_eq_true_eq, bne_iff_ne] at h h'
    have hk : c.1 = c'.1 := by
      rcases Nat.lt_trichotomy c.1 c'.1 with hlt | he | hgt
      · have e := hr c.1
        rw [Memory.read, if_pos rfl, Memory.read, if_neg (by omega),
          Memory.read_below (by omega) h'.2] at e
        exact absurd e h.1.2
      · exact he
      · have e := hr c'.1
        rw [Memory.read, if_neg (by omega), Memory.read_below (by omega) h.2, Memory.read,
          if_pos rfl] at e
        exact absurd e.symm h'.1.2
    have hv : c.2 = c'.2 := by
      have e := hr c.1
      rwa [Memory.read, if_pos rfl, Memory.read, if_pos hk.symm] at e
    have ht : r = r' := by
      refine Memory.ext_of_wf (lo := c.1 + 1) h.2 (hk ▸ h'.2) fun a => ?_
      by_cases ha : a < c.1 + 1
      · rw [Memory.read_below ha h.2, Memory.read_below (by omega) h'.2]
      · have e := hr a
        rwa [Memory.read, if_neg (by omega), Memory.read, if_neg (by omega)] at e
    rw [Prod.ext hk hv, ht]

end Sys2Proof.Machine
end

