-- ==== Sys2Proof/Laws/Bytes.lean ====
section
/-! SUPPORT. Big-endian values and their bytes (20_memory.md R61), and the fields of an
instruction byte (30_encoding.md R97, R103). -/

namespace Sys2Proof

theorem append_bytes16 (v : BitVec 16) : v.extractLsb' 8 8 ++ v.extractLsb' 0 8 = v := by
  refine BitVec.eq_of_getLsbD_eq fun i hi => ?_
  simp only [BitVec.getLsbD_append, BitVec.getLsbD_extractLsb']
  split
  · simp [*]
  · simp only [show i - 8 < 8 by omega, show 8 + (i - 8) = i by omega, decide_true, Bool.true_and]

theorem append_bytes24 (v : BitVec 24) :
    v.extractLsb' 16 8 ++ v.extractLsb' 8 8 ++ v.extractLsb' 0 8 = v := by
  refine BitVec.eq_of_getLsbD_eq fun i hi => ?_
  simp only [BitVec.getLsbD_append, BitVec.getLsbD_extractLsb']
  split
  · simp [*]
  · split
    · simp only [*, show 8 + (i - 8) = i by omega, decide_true, Bool.true_and]
    · simp only [show i - 8 - 8 < 8 by omega, show 16 + (i - 8 - 8) = i by omega, decide_true,
        Bool.true_and]

theorem append_bytes32 (v : BitVec 32) :
    v.extractLsb' 24 8 ++ v.extractLsb' 16 8 ++ v.extractLsb' 8 8 ++ v.extractLsb' 0 8 = v := by
  refine BitVec.eq_of_getLsbD_eq fun i hi => ?_
  simp only [BitVec.getLsbD_append, BitVec.getLsbD_extractLsb']
  split
  · simp [*]
  · split
    · simp only [*, show 8 + (i - 8) = i by omega, decide_true, Bool.true_and]
    · split
      · simp only [*, show 16 + (i - 8 - 8) = i by omega, decide_true, Bool.true_and]
      · simp only [show i - 8 - 8 - 8 < 8 by omega, show 24 + (i - 8 - 8 - 8) = i by omega,
          decide_true, Bool.true_and]

/-- A value is the big-endian value of its bytes. -/
theorem be_byteOf (w : Width) (v : BitVec w.bits) : be w (byteOf w v) = v := by
  cases w
  · exact BitVec.extractLsb'_eq_self
  · exact append_bytes16 v
  · exact append_bytes24 v
  · exact append_bytes32 v

/-- `be` looks at the bytes of the width only. -/
theorem be_congr {w : Width} {b b' : Nat → Byte} (h : ∀ j < w.bytes, b j = b' j) : be w b = be w b' := by
  cases w <;> simp only [be] <;> simp only [Width.bytes] at h <;>
    simp only [h 0 (by omega), h 1, h 2, h 3, Nat.lt_add_one, Nat.reduceLT]

theorem extract_high (n : Nat) (x : BitVec n) (y : BitVec 8) (k m : Nat) :
    (x ++ y).extractLsb' (k + 8) m = x.extractLsb' k m := by
  refine BitVec.eq_of_getLsbD_eq fun i hi => ?_
  simp only [BitVec.getLsbD_append, BitVec.getLsbD_extractLsb']
  simp only [show ¬ k + 8 + i < 8 by omega, if_false, show k + 8 + i - 8 = k + i by omega]

theorem extract_low (n : Nat) (x : BitVec n) (y : BitVec 8) : (x ++ y).extractLsb' 0 8 = y := by
  refine BitVec.eq_of_getLsbD_eq fun i hi => ?_
  simp only [BitVec.getLsbD_append, BitVec.getLsbD_extractLsb']
  simp [hi]

/-- The bytes of a big-endian value. -/
theorem byteOf_be (w : Width) (b : Nat → Byte) (j : Nat) (hj : j < w.bytes) :
    byteOf w (be w b) j = b j := by
  cases w
  · obtain rfl : j = 0 := by simp only [Width.bytes] at hj; omega
    exact BitVec.extractLsb'_eq_self
  · simp only [Width.bytes] at hj
    interval_cases j
    · exact (extract_high 8 _ _ 0 8).trans BitVec.extractLsb'_eq_self
    · exact extract_low 8 _ _
  · simp only [Width.bytes] at hj
    interval_cases j
    · exact (extract_high 16 _ _ 8 8).trans ((extract_high 8 _ _ 0 8).trans BitVec.extractLsb'_eq_self)
    · exact (extract_high 16 _ _ 0 8).trans (extract_low 8 _ _)
    · exact extract_low 16 _ _
  · simp only [Width.bytes] at hj
    interval_cases j
    · exact (extract_high 24 _ _ 16 8).trans ((extract_high 16 _ _ 8 8).trans
        ((extract_high 8 _ _ 0 8).trans BitVec.extractLsb'_eq_self))
    · exact (extract_high 24 _ _ 8 8).trans ((extract_high 16 _ _ 0 8).trans (extract_low 8 _ _))
    · exact (extract_high 24 _ _ 0 8).trans (extract_low 16 _ _)
    · exact extract_low 24 _ _

theorem bytesOf_length (w : Width) (v : BitVec w.bits) : (bytesOf w v).length = w.bytes := by
  simp [bytesOf]

/-- The register index of a register byte (R103). -/
theorem ixByte_setWidth (i : BitVec 5) : (ixByte i).setWidth 5 = i := by
  revert i; decide

/-- The variant of a sub-opcode built from one (R97, R98). -/
theorem variantOf_subOf (v : BitVec 3) (k : BitVec 5) : variantOf (subOf v k) = v := by
  revert v k; decide

/-- The index of a sub-opcode built from one (R97, R98). -/
theorem lowOf_subOf (v : BitVec 3) (k : BitVec 5) : lowOf (subOf v k) = k := by
  revert v k; decide

/-- A sub-opcode is its variant and its index. -/
theorem subOf_variantOf_lowOf (b : Byte) : subOf (variantOf b) (lowOf b) = b := by
  revert b; decide

end Sys2Proof
end

