-- ==== Sys2Proof/Laws/PerInstr.lean ====
section
/-! SUPPORT. Statements about every instruction, one lemma per constructor of `Instr`. -/

namespace Sys2Proof.Laws.EncodeLength

/-- The words of an instruction, where `encode` writes them, are as many bytes as `Instr.length` says
(30_encoding.md R102, R107). -/
def Statement (i : Instr) : Prop :=
  ∀ (p : Params) (bs : List Byte), encode p i = some bs → bs.length = i.length p

/-- LD has pattern 1, whatever the parameters (R99). -/
theorem ldLead (p : Params) : p.lead 1#8 = 2 := rfl

theorem memOp (m : MemOp) : m.encode.length = m.size := by
  cases m <;> simp [MemOp.encode, MemOp.size, bytesOf_length, Width.bytes]

theorem src32 (x : Src32) : x.encode.length = x.kind.size := by
  cases x <;> simp [Src32.encode, Src32.kind, SrcKind.size, bytesOf_length]

/-- The bytes of a listed form that has operands: those before `Params.lead`, and the operands. -/
theorem place (p : Params) (op sub : Byte) {l : List Byte} (h : l ≠ []) :
    (p.place op sub l).length = p.lead op + l.length := by
  unfold Params.place Params.lead
  cases l with
  | nil => exact absurd rfl h
  | cons b r =>
    generalize p.subop? op = k
    match k with
    | none | some .present | some .constant | some .absent | some .packed => simp; try omega

theorem given {α : Type} {p : Params} {op : Byte} {listed : α → Form} {operands : α → List Byte}
    {x : α} {bs : List Byte} (h : Given.encode p op listed operands (.form x) = some bs)
    (ne : operands x ≠ []) : bs.length = p.lead op + (operands x).length := by
  simp only [Given.encode, Option.map_eq_some_iff] at h
  obtain ⟨sub, -, rfl⟩ := h
  exact place p op sub ne

theorem unlisted {α : Type} {p : Params} {op : Byte} {listed : α → Form} {operands : α → List Byte}
    {sub : Byte} {bs : List Byte} (h : Given.encode p op listed operands (.unlisted sub) = some bs) :
    bs.length = 2 := by
  obtain rfl := Option.some.inj h
  rfl

theorem jump {op : Byte} {nnn : Option (BitVec 3)} {a : Addr} {bs : List Byte}
    (h : encodeNnn op nnn a = some bs) : bs.length = 5 := by
  simp only [encodeNnn, Option.map_eq_some_iff] at h
  obtain ⟨v, -, rfl⟩ := h
  simp [bytesOf_length]

theorem condJump {op : Byte} {cond : Option (BitVec 3)} {k : CondIx} {a : Addr} {bs : List Byte}
    (h : encodeCond op cond k a = some bs) : bs.length = 5 := by
  simp only [encodeCond, Option.map_eq_some_iff] at h
  obtain ⟨v, -, rfl⟩ := h
  simp [bytesOf_length]

theorem src32_ne (x : Src32) : x.encode ≠ [] := by
  intro h
  have := src32 x
  rw [h] at this
  cases x <;> simp [Src32.kind, SrcKind.size] at this

theorem setForm (x : SetForm) : x.encode.length = x.k.kind.size + x.v.kind.size := by
  unfold SetForm.encode SetForm.emitted
  split <;> simp [src32, Nat.add_comm]

theorem setForm_ne (x : SetForm) : x.encode ≠ [] := fun h =>
  src32_ne x.emitted.1 (List.append_eq_nil_iff.mp h).1

theorem arith (x : ArithForm) : x.encode.length + 1 = x.length := by
  cases x <;> simp [ArithForm.encode, ArithForm.length, memOp]; omega

theorem nop : Statement .nop := fun p _ h => by
  obtain rfl := Option.some.inj h
  simp only [Instr.length]; split <;> rfl

theorem ldRN (d : RegIx) (n : Byte) : Statement (.ldRN d n) := fun _ _ h => by
  obtain rfl := Option.some.inj h; rfl

theorem ldRR (d s : RegIx) : Statement (.ldRR d s) := fun _ _ h => by
  obtain rfl := Option.some.inj h; rfl

theorem ldRAbs (d : RegIx) (a : Addr) : Statement (.ldRAbs d a) := fun _ _ h => by
  obtain rfl := Option.some.inj h; simp [Instr.length, bytesOf_length, Width.bytes]

theorem ldRAbsImm (d : RegIx) (a o : Addr) : Statement (.ldRAbsImm d a o) := fun _ _ h => by
  obtain rfl := Option.some.inj h; simp [Instr.length, bytesOf_length, Width.bytes]

theorem ldRAbsR8 (d : RegIx) (a : Addr) (q : RegIx) : Statement (.ldRAbsR8 d a q) := fun _ _ h => by
  obtain rfl := Option.some.inj h; simp [Instr.length, bytesOf_length, Width.bytes]

theorem ldRAbsR16 (d : RegIx) (a : Addr) (q : RegIx) : Statement (.ldRAbsR16 d a q) := fun _ _ h => by
  obtain rfl := Option.some.inj h; simp [Instr.length, bytesOf_length, Width.bytes]

theorem ldRAbsR24 (d : RegIx) (a : Addr) (q : RegIx) : Statement (.ldRAbsR24 d a q) := fun _ _ h => by
  obtain rfl := Option.some.inj h; simp [Instr.length, bytesOf_length, Width.bytes]

theorem ldRInd (d b : RegIx) : Statement (.ldRInd d b) := fun _ _ h => by
  obtain rfl := Option.some.inj h; rfl

theorem ldRIndImm (d b : RegIx) (o : Addr) : Statement (.ldRIndImm d b o) := fun _ _ h => by
  obtain rfl := Option.some.inj h; simp [Instr.length, bytesOf_length, Width.bytes]

theorem ldRIndR8 (d b q : RegIx) : Statement (.ldRIndR8 d b q) := fun _ _ h => by
  obtain rfl := Option.some.inj h; rfl

theorem ldRIndR16 (d b q : RegIx) : Statement (.ldRIndR16 d b q) := fun _ _ h => by
  obtain rfl := Option.some.inj h; rfl

theorem ldRIndR24 (d b q : RegIx) : Statement (.ldRIndR24 d b q) := fun _ _ h => by
  obtain rfl := Option.some.inj h; rfl

theorem ldRFr (d : RegIx) (f : FRegIx) : Statement (.ldRFr d f) := fun _ _ h => by
  obtain rfl := Option.some.inj h; rfl

theorem ldRr (f : Given (LdForm .w16)) : Statement (.ldRr f) := fun _ _ h => by
  simp only [encode] at h
  match f with
  | .form (.imm _ _) | .form (.reg _ _) | .form (.mem _ _) =>
    rw [given h (List.cons_ne_nil _ _)]
    simp [LdForm.operands, Instr.length, bytesOf_length, memOp, ldLead, Width.bytes]; try omega
  | .unlisted _ => exact unlisted h

theorem ldRrr (f : Given (LdForm .w24)) : Statement (.ldRrr f) := fun _ _ h => by
  simp only [encode] at h
  match f with
  | .form (.imm _ _) | .form (.reg _ _) | .form (.mem _ _) =>
    rw [given h (List.cons_ne_nil _ _)]
    simp [LdForm.operands, Instr.length, bytesOf_length, memOp, ldLead, Width.bytes]; try omega
  | .unlisted _ => exact unlisted h

theorem ldRrrr (f : Given (LdForm .w32)) : Statement (.ldRrrr f) := fun _ _ h => by
  simp only [encode] at h
  match f with
  | .form (.imm _ _) | .form (.reg _ _) | .form (.mem _ _) =>
    rw [given h (List.cons_ne_nil _ _)]
    simp [LdForm.operands, Instr.length, bytesOf_length, memOp, ldLead, Width.bytes]; try omega
  | .unlisted _ => exact unlisted h

theorem ldMem (f : Given StForm) : Statement (.ldMem f) := fun _ _ h => by
  simp only [encode] at h
  match f with
  | .form (.reg _ _ _) | .form (.fr _ _) =>
    rw [given h (List.cons_ne_nil _ _)]
    simp [StForm.operands, Instr.length, memOp, ldLead]; omega
  | .unlisted _ => exact unlisted h

theorem ldFr (f : Given FrForm) : Statement (.ldFr f) := fun _ _ h => by
  simp only [encode] at h
  match f with
  | .form (.fr _ _) | .form (.mem _ _) =>
    rw [given h (List.cons_ne_nil _ _)]
    simp [FrForm.operands, Instr.length, memOp, ldLead]; try omega
  | .unlisted _ => exact unlisted h

theorem ldUndef (sub : Byte) : Statement (.ldUndef sub) := fun _ _ h => by
  obtain rfl := Option.some.inj h; rfl

theorem ldRrrInd (d b : RegIx) : Statement (.ldRrrInd d b) := fun _ _ h => by
  simp only [encode, Option.map_eq_some_iff] at h
  obtain ⟨_, -, rfl⟩ := h
  rfl

theorem ldAbsR (s : RegIx) (a : Addr) : Statement (.ldAbsR s a) := fun _ _ h => by
  simp only [encode, Option.map_eq_some_iff] at h
  obtain ⟨_, -, rfl⟩ := h
  simp [Instr.length, bytesOf_length, Width.bytes]

theorem addRN (d : RegIx) (n : Byte) : Statement (.addRN d n) := fun _ _ h => by
  obtain rfl := Option.some.inj h; rfl

theorem addR (f : Given ArithForm) : Statement (.addR f) := fun _ _ h => by
  simp only [encode] at h
  match f with
  | .form x => obtain rfl := Option.some.inj h; exact arith x
  | .unlisted _ => obtain rfl := Option.some.inj h; rfl

theorem addUndef (sub : Byte) : Statement (.addUndef sub) := fun _ _ h => by
  obtain rfl := Option.some.inj h; rfl

theorem add16 (b1 : Byte) : Statement (.add16 b1) := fun _ _ h => by
  obtain rfl := Option.some.inj h; rfl

theorem add24 (b1 : Byte) : Statement (.add24 b1) := fun _ _ h => by
  obtain rfl := Option.some.inj h; rfl

theorem add32 (b1 : Byte) : Statement (.add32 b1) := fun _ _ h => by
  obtain rfl := Option.some.inj h; rfl

theorem sub (f : Given ArithForm) : Statement (.sub f) := fun _ _ h => by
  simp only [encode] at h
  match f with
  | .form x => obtain rfl := Option.some.inj h; exact arith x
  | .unlisted _ => obtain rfl := Option.some.inj h; rfl

theorem sub16 (b1 : Byte) : Statement (.sub16 b1) := fun _ _ h => by
  obtain rfl := Option.some.inj h; rfl

theorem sub24 (b1 : Byte) : Statement (.sub24 b1) := fun _ _ h => by
  obtain rfl := Option.some.inj h; rfl

theorem sub32 (b1 : Byte) : Statement (.sub32 b1) := fun _ _ h => by
  obtain rfl := Option.some.inj h; rfl

theorem subUndef (sub : Byte) : Statement (.subUndef sub) := fun _ _ h => by
  obtain rfl := Option.some.inj h; rfl

theorem div (f : Given DivForm) : Statement (.div f) := fun _ _ h => by
  simp only [encode] at h
  match f with
  | .form _ => exact given h (List.cons_ne_nil _ _)
  | .unlisted _ => exact unlisted h

theorem mul (b1 : Byte) : Statement (.mul b1) := fun _ _ h => by
  obtain rfl := Option.some.inj h; rfl

theorem sl (b1 : Byte) : Statement (.sl b1) := fun _ _ h => by
  obtain rfl := Option.some.inj h; rfl

theorem sr (b1 : Byte) : Statement (.sr b1) := fun _ _ h => by
  obtain rfl := Option.some.inj h; rfl

theorem rl (b1 : Byte) : Statement (.rl b1) := fun _ _ h => by
  obtain rfl := Option.some.inj h; rfl

theorem rr (b1 : Byte) : Statement (.rr b1) := fun _ _ h => by
  obtain rfl := Option.some.inj h; rfl

theorem set (b1 : Byte) : Statement (.set b1) := fun _ _ h => by
  obtain rfl := Option.some.inj h; rfl

theorem res (b1 : Byte) : Statement (.res b1) := fun _ _ h => by
  obtain rfl := Option.some.inj h; rfl

theorem bit (b1 : Byte) : Statement (.bit b1) := fun _ _ h => by
  obtain rfl := Option.some.inj h; rfl

theorem and (b1 : Byte) : Statement (.and b1) := fun _ _ h => by
  obtain rfl := Option.some.inj h; rfl

theorem and16 (b1 : Byte) : Statement (.and16 b1) := fun _ _ h => by
  obtain rfl := Option.some.inj h; rfl

theorem and24 (b1 : Byte) : Statement (.and24 b1) := fun _ _ h => by
  obtain rfl := Option.some.inj h; rfl

theorem and32 (b1 : Byte) : Statement (.and32 b1) := fun _ _ h => by
  obtain rfl := Option.some.inj h; rfl

theorem or (b1 : Byte) : Statement (.or b1) := fun _ _ h => by
  obtain rfl := Option.some.inj h; rfl

theorem or16 (b1 : Byte) : Statement (.or16 b1) := fun _ _ h => by
  obtain rfl := Option.some.inj h; rfl

theorem or24 (b1 : Byte) : Statement (.or24 b1) := fun _ _ h => by
  obtain rfl := Option.some.inj h; rfl

theorem or32 (b1 : Byte) : Statement (.or32 b1) := fun _ _ h => by
  obtain rfl := Option.some.inj h; rfl

theorem xor (b1 : Byte) : Statement (.xor b1) := fun _ _ h => by
  obtain rfl := Option.some.inj h; rfl

theorem xor16 (b1 : Byte) : Statement (.xor16 b1) := fun _ _ h => by
  obtain rfl := Option.some.inj h; rfl

theorem xor24 (b1 : Byte) : Statement (.xor24 b1) := fun _ _ h => by
  obtain rfl := Option.some.inj h; rfl

theorem xor32 (b1 : Byte) : Statement (.xor32 b1) := fun _ _ h => by
  obtain rfl := Option.some.inj h; rfl

theorem inv (b1 : Byte) : Statement (.inv b1) := fun _ _ h => by
  obtain rfl := Option.some.inj h; rfl

theorem ex (v : BitVec 3) (k : BitVec 5) : Statement (.ex v k) := fun _ _ h => by
  obtain rfl := Option.some.inj h; rfl

theorem cp (v : BitVec 3) (k : BitVec 5) : Statement (.cp v k) := fun _ _ h => by
  obtain rfl := Option.some.inj h; rfl

theorem inc (b1 : Byte) : Statement (.inc b1) := fun _ _ h => by
  obtain rfl := Option.some.inj h; rfl

theorem inc16 (b1 : Byte) : Statement (.inc16 b1) := fun _ _ h => by
  obtain rfl := Option.some.inj h; rfl

theorem inc24 (b1 : Byte) : Statement (.inc24 b1) := fun _ _ h => by
  obtain rfl := Option.some.inj h; rfl

theorem inc32 (b1 : Byte) : Statement (.inc32 b1) := fun _ _ h => by
  obtain rfl := Option.some.inj h; rfl

theorem dec (b1 : Byte) : Statement (.dec b1) := fun _ _ h => by
  obtain rfl := Option.some.inj h; rfl

theorem dec16 (b1 : Byte) : Statement (.dec16 b1) := fun _ _ h => by
  obtain rfl := Option.some.inj h; rfl

theorem dec24 (b1 : Byte) : Statement (.dec24 b1) := fun _ _ h => by
  obtain rfl := Option.some.inj h; rfl

theorem dec32 (b1 : Byte) : Statement (.dec32 b1) := fun _ _ h => by
  obtain rfl := Option.some.inj h; rfl

theorem callNnn (a : Addr) : Statement (.callNnn a) := fun _ _ h => jump h

theorem callCond (k : CondIx) (a : Addr) : Statement (.callCond k a) := fun _ _ h => condJump h

theorem callOther (v : BitVec 3) (k : BitVec 5) : Statement (.callOther v k) := fun _ _ h => by
  obtain rfl := Option.some.inj h; rfl

theorem callrNnn (o : Addr) : Statement (.callrNnn o) := fun _ _ h => jump h

theorem callrCond (k : CondIx) (o : Addr) : Statement (.callrCond k o) := fun _ _ h => condJump h

theorem callrOther (v : BitVec 3) (k : BitVec 5) : Statement (.callrOther v k) := fun _ _ h => by
  obtain rfl := Option.some.inj h; rfl

theorem jpNnn (a : Addr) : Statement (.jpNnn a) := fun _ _ h => jump h

theorem jpCond (k : CondIx) (a : Addr) : Statement (.jpCond k a) := fun _ _ h => condJump h

theorem jpOther (v : BitVec 3) (k : BitVec 5) : Statement (.jpOther v k) := fun _ _ h => by
  obtain rfl := Option.some.inj h; rfl

theorem jrNnn (o : Addr) : Statement (.jrNnn o) := fun _ _ h => jump h

theorem jrCond (k : CondIx) (o : Addr) : Statement (.jrCond k o) := fun _ _ h => condJump h

theorem jrOther (v : BitVec 3) (k : BitVec 5) : Statement (.jrOther v k) := fun _ _ h => by
  obtain rfl := Option.some.inj h; rfl

theorem pop (f : Given RegIx) : Statement (.pop f) := fun _ _ h => by
  simp only [encode] at h
  match f with
  | .form _ => exact given h (List.cons_ne_nil _ _)
  | .unlisted _ => exact unlisted h

theorem pop16 (f : Given RegIx) : Statement (.pop16 f) := fun _ _ h => by
  simp only [encode] at h
  match f with
  | .form _ => exact given h (List.cons_ne_nil _ _)
  | .unlisted _ => exact unlisted h

theorem pop24 (f : Given RegIx) : Statement (.pop24 f) := fun _ _ h => by
  simp only [encode] at h
  match f with
  | .form _ => exact given h (List.cons_ne_nil _ _)
  | .unlisted _ => exact unlisted h

theorem pop32 (f : Given Reg32) : Statement (.pop32 f) := fun _ _ h => by
  simp only [encode] at h
  match f with
  | .form _ => exact given h (List.cons_ne_nil _ _)
  | .unlisted _ => exact unlisted h

theorem push (f : Given RegIx) : Statement (.push f) := fun _ _ h => by
  simp only [encode] at h
  match f with
  | .form _ => exact given h (List.cons_ne_nil _ _)
  | .unlisted _ => exact unlisted h

theorem push16 (f : Given RegIx) : Statement (.push16 f) := fun _ _ h => by
  simp only [encode] at h
  match f with
  | .form _ => exact given h (List.cons_ne_nil _ _)
  | .unlisted _ => exact unlisted h

theorem push24 (f : Given RegIx) : Statement (.push24 f) := fun _ _ h => by
  simp only [encode] at h
  match f with
  | .form _ => exact given h (List.cons_ne_nil _ _)
  | .unlisted _ => exact unlisted h

theorem push32 (f : Given Reg32) : Statement (.push32 f) := fun _ _ h => by
  simp only [encode] at h
  match f with
  | .form _ => exact given h (List.cons_ne_nil _ _)
  | .unlisted _ => exact unlisted h

theorem int (b1 : Byte) : Statement (.int b1) := fun _ _ h => by
  obtain rfl := Option.some.inj h; rfl

theorem rand (b1 : Byte) : Statement (.rand b1) := fun _ _ h => by
  obtain rfl := Option.some.inj h; rfl

theorem min (b1 : Byte) : Statement (.min b1) := fun _ _ h => by
  obtain rfl := Option.some.inj h; rfl

theorem max (b1 : Byte) : Statement (.max b1) := fun _ _ h => by
  obtain rfl := Option.some.inj h; rfl

theorem djnz (b1 : Byte) : Statement (.djnz b1) := fun _ _ h => by
  obtain rfl := Option.some.inj h; rfl

theorem djnz16 (b1 : Byte) : Statement (.djnz16 b1) := fun _ _ h => by
  obtain rfl := Option.some.inj h; rfl

theorem djnz24 (b1 : Byte) : Statement (.djnz24 b1) := fun _ _ h => by
  obtain rfl := Option.some.inj h; rfl

theorem djnz32 (b1 : Byte) : Statement (.djnz32 b1) := fun _ _ h => by
  obtain rfl := Option.some.inj h; rfl

theorem setf (b1 : Byte) : Statement (.setf b1) := fun _ _ h => by
  obtain rfl := Option.some.inj h; rfl

theorem resf (b1 : Byte) : Statement (.resf b1) := fun _ _ h => by
  obtain rfl := Option.some.inj h; rfl

theorem invf (b1 : Byte) : Statement (.invf b1) := fun _ _ h => by
  obtain rfl := Option.some.inj h; rfl

theorem ldf (b1 : Byte) : Statement (.ldf b1) := fun _ _ h => by
  obtain rfl := Option.some.inj h; rfl

theorem regs (b1 : Byte) : Statement (.regs b1) := fun _ _ h => by
  obtain rfl := Option.some.inj h; rfl

theorem wait (b1 : Byte) : Statement (.wait b1) := fun _ _ h => by
  obtain rfl := Option.some.inj h; rfl

theorem vdl (b1 : Byte) : Statement (.vdl b1) := fun _ _ h => by
  obtain rfl := Option.some.inj h; rfl

theorem vcl (b1 : Byte) : Statement (.vcl b1) := fun _ _ h => by
  obtain rfl := Option.some.inj h; rfl

theorem find (b1 : Byte) : Statement (.find b1) := fun _ _ h => by
  obtain rfl := Option.some.inj h; rfl

theorem imply (v : BitVec 3) (k : BitVec 5) : Statement (.imply v k) := fun _ _ h => by
  obtain rfl := Option.some.inj h; rfl

theorem imply16 (v : BitVec 3) (k : BitVec 5) : Statement (.imply16 v k) := fun _ _ h => by
  obtain rfl := Option.some.inj h; rfl

theorem imply24 (v : BitVec 3) (k : BitVec 5) : Statement (.imply24 v k) := fun _ _ h => by
  obtain rfl := Option.some.inj h; rfl

theorem imply32 (v : BitVec 3) (k : BitVec 5) : Statement (.imply32 v k) := fun _ _ h => by
  obtain rfl := Option.some.inj h; rfl

theorem nand (b1 : Byte) : Statement (.nand b1) := fun _ _ h => by
  obtain rfl := Option.some.inj h; rfl

theorem nand16 (b1 : Byte) : Statement (.nand16 b1) := fun _ _ h => by
  obtain rfl := Option.some.inj h; rfl

theorem nand24 (b1 : Byte) : Statement (.nand24 b1) := fun _ _ h => by
  obtain rfl := Option.some.inj h; rfl

theorem nand32 (b1 : Byte) : Statement (.nand32 b1) := fun _ _ h => by
  obtain rfl := Option.some.inj h; rfl

theorem nor (b1 : Byte) : Statement (.nor b1) := fun _ _ h => by
  obtain rfl := Option.some.inj h; rfl

theorem nor16 (b1 : Byte) : Statement (.nor16 b1) := fun _ _ h => by
  obtain rfl := Option.some.inj h; rfl

theorem nor24 (b1 : Byte) : Statement (.nor24 b1) := fun _ _ h => by
  obtain rfl := Option.some.inj h; rfl

theorem nor32 (b1 : Byte) : Statement (.nor32 b1) := fun _ _ h => by
  obtain rfl := Option.some.inj h; rfl

theorem xnor (b1 : Byte) : Statement (.xnor b1) := fun _ _ h => by
  obtain rfl := Option.some.inj h; rfl

theorem xnor16 (b1 : Byte) : Statement (.xnor16 b1) := fun _ _ h => by
  obtain rfl := Option.some.inj h; rfl

theorem xnor24 (b1 : Byte) : Statement (.xnor24 b1) := fun _ _ h => by
  obtain rfl := Option.some.inj h; rfl

theorem xnor32 (b1 : Byte) : Statement (.xnor32 b1) := fun _ _ h => by
  obtain rfl := Option.some.inj h; rfl

theorem getbits (b1 : Byte) : Statement (.getbits b1) := fun _ _ h => by
  obtain rfl := Option.some.inj h; rfl

theorem setbits (b1 : Byte) : Statement (.setbits b1) := fun _ _ h => by
  obtain rfl := Option.some.inj h; rfl

theorem memf (b1 : Byte) : Statement (.memf b1) := fun _ _ h => by
  obtain rfl := Option.some.inj h; rfl

theorem memc (b1 : Byte) : Statement (.memc b1) := fun _ _ h => by
  obtain rfl := Option.some.inj h; rfl

theorem ldregs (b1 : Byte) : Statement (.ldregs b1) := fun _ _ h => by
  obtain rfl := Option.some.inj h; rfl

theorem stregs (b1 : Byte) : Statement (.stregs b1) := fun _ _ h => by
  obtain rfl := Option.some.inj h; rfl

theorem sdiv (f : Given DivForm) : Statement (.sdiv f) := fun _ _ h => by
  simp only [encode] at h
  match f with
  | .form _ => exact given h (List.cons_ne_nil _ _)
  | .unlisted _ => exact unlisted h

theorem smul (b1 : Byte) : Statement (.smul b1) := fun _ _ h => by
  obtain rfl := Option.some.inj h; rfl

theorem scp (b1 : Byte) : Statement (.scp b1) := fun _ _ h => by
  obtain rfl := Option.some.inj h; rfl

theorem fregs (b1 : Byte) : Statement (.fregs b1) := fun _ _ h => by
  obtain rfl := Option.some.inj h; rfl

theorem pow (b1 : Byte) : Statement (.pow b1) := fun _ _ h => by
  obtain rfl := Option.some.inj h; rfl

theorem sqr (b1 : Byte) : Statement (.sqr b1) := fun _ _ h => by
  obtain rfl := Option.some.inj h; rfl

theorem cbr (b1 : Byte) : Statement (.cbr b1) := fun _ _ h => by
  obtain rfl := Option.some.inj h; rfl

theorem isqr (b1 : Byte) : Statement (.isqr b1) := fun _ _ h => by
  obtain rfl := Option.some.inj h; rfl

theorem isgn (b1 : Byte) : Statement (.isgn b1) := fun _ _ h => by
  obtain rfl := Option.some.inj h; rfl

theorem sin (b1 : Byte) : Statement (.sin b1) := fun _ _ h => by
  obtain rfl := Option.some.inj h; rfl

theorem cos (b1 : Byte) : Statement (.cos b1) := fun _ _ h => by
  obtain rfl := Option.some.inj h; rfl

theorem tan (b1 : Byte) : Statement (.tan b1) := fun _ _ h => by
  obtain rfl := Option.some.inj h; rfl

theorem abs (b1 : Byte) : Statement (.abs b1) := fun _ _ h => by
  obtain rfl := Option.some.inj h; rfl

theorem round (b1 : Byte) : Statement (.round b1) := fun _ _ h => by
  obtain rfl := Option.some.inj h; rfl

theorem floor (b1 : Byte) : Statement (.floor b1) := fun _ _ h => by
  obtain rfl := Option.some.inj h; rfl

theorem ceil (b1 : Byte) : Statement (.ceil b1) := fun _ _ h => by
  obtain rfl := Option.some.inj h; rfl

theorem play (b1 : Byte) : Statement (.play b1) := fun _ _ h => by
  obtain rfl := Option.some.inj h; rfl

theorem setvar (f : Given SetForm) : Statement (.setvar f) := fun _ _ h => by
  simp only [encode] at h
  match f with
  | .form x => rw [given h (setForm_ne x), setForm]; exact (Nat.add_assoc ..).symm
  | .unlisted _ => exact unlisted h

theorem getvar (f : Given GetForm) : Statement (.getvar f) := fun _ _ h => by
  simp only [encode] at h
  match f with
  | .form x => rw [given h (List.cons_ne_nil _ _)]; simp [Instr.length, src32]; omega
  | .unlisted _ => exact unlisted h

theorem rgb2hsl (b1 : Byte) : Statement (.rgb2hsl b1) := fun _ _ h => by
  obtain rfl := Option.some.inj h; rfl

theorem hsl2rgb (b1 : Byte) : Statement (.hsl2rgb b1) := fun _ _ h => by
  obtain rfl := Option.some.inj h; rfl

theorem rgb2hsb (b1 : Byte) : Statement (.rgb2hsb b1) := fun _ _ h => by
  obtain rfl := Option.some.inj h; rfl

theorem hsb2rgb (b1 : Byte) : Statement (.hsb2rgb b1) := fun _ _ h => by
  obtain rfl := Option.some.inj h; rfl

theorem debug (b1 : Byte) : Statement (.debug b1) := fun _ _ h => by
  obtain rfl := Option.some.inj h; rfl

theorem brk (b1 : Byte) : Statement (.brk b1) := fun _ _ h => by
  obtain rfl := Option.some.inj h; rfl

theorem retif (f : Given CondIx) : Statement (.retif f) := fun _ _ h => by
  simp only [encode] at h
  match f with
  | .form _ => exact given h (List.cons_ne_nil _ _)
  | .unlisted _ => exact unlisted h

theorem ret : Statement .ret := fun p _ h => by
  obtain rfl := Option.some.inj h
  simp only [Instr.length]; split <;> rfl

end Sys2Proof.Laws.EncodeLength
end

