-- ==== Sys2Proof/Laws/Decode.lean ====
section
/-! SUPPORT. What the decoder's field readers give on the bytes that the encoder writes, wherever in the
instruction they stand, and `decode` from `decodeAt`. -/

namespace Sys2Proof

/-- A byte of a list, counted from a later place. -/
theorem getD_drop (l : List Byte) (n j : Nat) : l.getD (n + j) 0 = (l.drop n).getD j 0 := by
  simp [List.getD_eq_getElem?_getD, List.getElem?_drop]

theorem bytesOf_getD (w : Width) (v : BitVec w.bits) (rest : List Byte) (j : Nat) (hj : j < w.bytes) :
    (bytesOf w v ++ rest).getD j 0 = byteOf w v j := by
  rw [List.getD_eq_getElem?_getD, List.getElem?_append_left (by rw [bytesOf_length]; exact hj)]
  simp [bytesOf, hj]

/-- A big-endian value stands where its bytes stand. -/
theorem be_at {w : Width} {v : BitVec w.bits} {l rest : List Byte} {n : Nat}
    (h : l.drop n = bytesOf w v ++ rest) : (be w fun j => l.getD (n + j) 0) = v := by
  refine (be_congr fun j hj => ?_).trans (be_byteOf w v)
  rw [getD_drop, h, bytesOf_getD w v rest j hj]

theorem addr_at {a : Addr} {l rest : List Byte} {n : Nat} (h : l.drop n = bytesOf .w24 a ++ rest) :
    addrAt (fun k => l.getD k 0) n = a := be_at h

theorem ix_at {i : BitVec 5} {l rest : List Byte} {n : Nat} (h : l.drop n = ixByte i :: rest) :
    ixAt (fun k => l.getD k 0) n = i := by
  have e : l.getD n 0 = ixByte i := by
    have := getD_drop l n 0
    rw [h] at this
    exact this
  exact (congrArg (BitVec.setWidth 5) e).trans (ixByte_setWidth i)

/-- A memory operand stands where its bytes stand (R102). -/
theorem mem_at {m : MemOp} {l rest : List Byte} {n : Nat} (h : l.drop n = m.encode ++ rest) :
    memAt m.mode (fun k => l.getD k 0) n = m := by
  have next : ∀ k, l.drop (n + k) = (m.encode ++ rest).drop k := fun k => by rw [← h, List.drop_drop]
  cases m with
  | abs a => exact congrArg MemOp.abs (addr_at h)
  | absImm a o =>
    exact congrArg₂ MemOp.absImm (addr_at (h.trans (List.append_assoc ..))) (addr_at (next 3))
  | absR8 a q =>
    exact congrArg₂ MemOp.absR8 (addr_at (h.trans (List.append_assoc ..))) (ix_at (next 3))
  | absR16 a q =>
    exact congrArg₂ MemOp.absR16 (addr_at (h.trans (List.append_assoc ..))) (ix_at (next 3))
  | absR24 a q =>
    exact congrArg₂ MemOp.absR24 (addr_at (h.trans (List.append_assoc ..))) (ix_at (next 3))
  | ind b => exact congrArg MemOp.ind (ix_at h)
  | indImm b o => exact congrArg₂ MemOp.indImm (ix_at h) (addr_at (next 1))
  | indR8 b q => exact congrArg₂ MemOp.indR8 (ix_at h) (ix_at (next 1))
  | indR16 b q => exact congrArg₂ MemOp.indR16 (ix_at h) (ix_at (next 1))
  | indR24 b q => exact congrArg₂ MemOp.indR24 (ix_at h) (ix_at (next 1))

/-- A 32-bit source operand stands where its bytes stand (R103, R104). -/
theorem src32_at {x : Src32} {l rest : List Byte} {n : Nat} (h : l.drop n = x.encode ++ rest) :
    src32At x.kind (fun k => l.getD k 0) n = x := by
  cases x with
  | imm v => exact congrArg Src32.imm (be_at h)
  | reg i => exact congrArg Src32.reg (ix_at h)

/-- The operands of SETVAR stand where their bytes stand (R116). -/
theorem setForm_at {x : SetForm} {l rest : List Byte} {n : Nat} (h : l.drop n = x.encode ++ rest) :
    setFormAt x.k.kind x.v.kind (fun k => l.getD k 0) n = x := by
  have next : ∀ k, l.drop (n + k) = (x.encode ++ rest).drop k := fun k => by rw [← h, List.drop_drop]
  obtain ⟨k, v⟩ := x
  have hf := h.trans (List.append_assoc ..)
  rcases k with a | i <;> rcases v with b | j
  · exact congrArg₂ SetForm.mk (src32_at (x := .imm a) hf) (src32_at (x := .imm b) (next 4))
  · exact congrArg₂ SetForm.mk (src32_at (x := .imm a) (next 1)) (src32_at (x := .reg j) hf)
  · exact congrArg₂ SetForm.mk (src32_at (x := .reg i) hf) (src32_at (x := .imm b) (next 1))
  · exact congrArg₂ SetForm.mk (src32_at (x := .reg i) hf) (src32_at (x := .reg j) (next 1))

/-- `decode` from `decodeAt`. -/
theorem decode_of {p : Params} {bs : List Byte} {i : Instr}
    (h : decodeAt p (fun k => bs.getD k 0) = .ok i) (hl : i.length p ≤ bs.length) :
    decode p bs = .ok i := by
  rw [decode, h]; exact if_pos hl

/-! ## Listed encodings -/

/-- What `Params.lists` says. -/
theorem Params.lists_iff {p : Params} {f : Form} : p.lists f = true ↔
    ∃ sub, p.sub? f = some sub ∧ inRange f.range.1 f.range.2 sub = true ∧
      p.form? f.opcode sub = some f := by
  unfold Params.lists
  cases p.sub? f <;> simp

/-- What `Params.listsLd` says. -/
theorem Params.listsLd_iff {p : Params} {f : Form} : p.listsLd f = true ↔
    ∃ sub, p.sub? f = some sub ∧ inRange f.range.1 f.range.2 sub = true ∧
      p.form? f.opcode sub = some f ∧ p.ldParam sub = false := by
  unfold Params.listsLd
  rw [Bool.and_eq_true, Params.lists_iff]
  constructor
  · rintro ⟨⟨sub, h1, h2, h3⟩, h4⟩
    rw [h1] at h4
    exact ⟨sub, h1, h2, h3, by simpa using h4⟩
  · rintro ⟨sub, h1, h2, h3, h4⟩
    exact ⟨⟨sub, h1, h2, h3⟩, by simp [h1, h4]⟩

/-- A form that is listed for an opcode belongs to it, and its operands fit the opcode's pattern. -/
theorem Params.form?_eq_some {p : Params} {op b1 : Byte} {f : Form} (h : p.form? op b1 = some f) :
    f.opcode = op ∧ ∃ k, p.subop? op = some k ∧ k ≠ .present ∧ (k = .packed → f.leadsIndex = true) := by
  unfold Params.form? at h
  cases e : p.subop? op with
  | none => rw [e] at h; cases h
  | some k =>
    rw [e] at h
    obtain ⟨r, hr, rfl⟩ := Option.map_eq_some_iff.1 h
    have hp := List.find?_some hr
    simp only [Bool.and_eq_true, beq_iff_eq] at hp
    refine ⟨hp.1.1, k, rfl, ?_, ?_⟩
    · rintro rfl; cases hp.2
    · rintro rfl; exact hp.1.2

/-- Under patterns 2 and 3 only bits 7:5 of byte 1 tell the forms apart. -/
theorem Params.form?_packed {p : Params} {op b c : Byte} (h : p.subop? op = some .packed)
    (e : b.extractLsb' 5 3 = c.extractLsb' 5 3) : p.form? op b = p.form? op c := by
  unfold Params.form?
  rw [h]
  simp only [Subop.hits, e]

/-- Without a sub-opcode byte nothing tells the forms apart. -/
theorem Params.form?_absent {p : Params} {op : Byte} (h : p.subop? op = some .absent) (b c : Byte) :
    p.form? op b = p.form? op c := by
  unfold Params.form?
  rw [h]
  rfl

/-- What the bytes of a listed form are, whatever pattern its opcode has: the primary opcode, a byte after
it that the decoder reads as the form, the first operand at `Params.lead`, and the other operands after
it. -/
theorem Params.place_spec {p : Params} {op sub b : Byte} {r rest l : List Byte} {f : Form}
    (h : p.form? op sub = some f) (hl : l = p.place op sub (b :: r) ++ rest) :
    l.getD 0 0 = op ∧ p.form? op (l.getD 1 0) = some f ∧
      ixAt (fun k => l.getD k 0) (p.lead op) = b.setWidth 5 ∧ l.drop (p.lead op + 1) = r ++ rest ∧
      (f.leadsIndex = false → l.drop (p.lead op) = b :: r ++ rest) := by
  obtain ⟨-, k, hk, hn, hf⟩ := Params.form?_eq_some h
  subst hl
  unfold Params.place Params.lead
  rw [hk]
  cases k with
  | present => exact absurd rfl hn
  | absent => exact ⟨rfl, (Params.form?_absent hk _ _).trans h, rfl, rfl, fun _ => rfl⟩
  | constant => exact ⟨rfl, h, rfl, rfl, fun _ => rfl⟩
  | packed =>
    refine ⟨rfl, (Params.form?_packed hk ?_).trans h, ?_, rfl, fun e => ?_⟩
    · exact variantOf_subOf (variantOf sub) (lowOf b)
    · exact lowOf_subOf (variantOf sub) (lowOf b)
    · rw [hf rfl] at e; cases e

theorem inRange_iff {lo hi : Nat} {b : Byte} : inRange lo hi b = true ↔ lo ≤ b.toNat ∧ b.toNat ≤ hi := by
  simp [inRange]

end Sys2Proof
end

