-- ==== Sys2Proof/Laws/Frame.lean ====
section
/-! SUPPORT. What each named operation leaves alone (`State.frame`), and how frames compose. -/

namespace Sys2Proof.Machine

/-! ## Composing frames -/

theorem State.frame_refl (s : State) (c : List Loc) : s.frame s c := ⟨fun _ _ => rfl, rfl⟩

theorem State.frame_trans {s t u : State} {c d : List Loc} (h : s.frame t c) (k : t.frame u d) :
    s.frame u (c ++ d) :=
  ⟨fun l hl => (k.1 l fun m => hl (List.mem_append_right _ m)).trans
    (h.1 l fun m => hl (List.mem_append_left _ m)), k.2.trans h.2⟩

theorem State.frame_mono {s t : State} {c d : List Loc} (h : s.frame t c) (hs : ∀ l ∈ c, l ∈ d) :
    s.frame t d :=
  ⟨fun l hl => h.1 l fun m => hl (hs l m), h.2⟩

/-! ## The named operations -/

theorem State.frame_drawFlags (s : State) : s.frame s.drawFlags [.flags] :=
  ⟨fun l hl => by cases l <;> first | rfl | simp at hl, rfl⟩

theorem State.frame_drawNext (s : State) : s.frame s.drawNext [] :=
  ⟨fun l _ => by cases l <;> rfl, rfl⟩

theorem State.frame_jump (s : State) (a : Addr) : s.frame (s.jump a) [.ipo] :=
  ⟨fun l hl => by cases l <;> first | rfl | simp at hl, rfl⟩

theorem State.frame_advance (s : State) (n : Nat) : s.frame (s.advance n) [.ipo] :=
  ⟨fun l hl => by cases l <;> first | rfl | simp at hl, rfl⟩

theorem State.frame_stop (s : State) : s.frame s.stop [.running] :=
  ⟨fun l hl => by cases l <;> first | rfl | simp at hl, rfl⟩

theorem State.frame_writeReg (s : State) (w : Width) (i : RegIx) (v : BitVec w.bits) :
    s.frame (s.writeReg w i v) (s.regLocs w i) := by
  refine ⟨fun l hl => ?_, rfl⟩
  cases l with
  | reg k =>
    refine congrArg BitVec.toNat (Memory.read_writeSeq_off _ _ _ _ _ fun j hj e => hl ?_)
    simp only [State.regLocs, List.mem_map, List.mem_range]
    exact ⟨j, hj, by rw [e]⟩
  | _ => rfl

theorem State.frame_writeF (s : State) (f : FRegIx) (v : Word32) :
    s.frame (s.writeF f v) [s.fregLoc f] := by
  refine ⟨fun l hl => ?_, rfl⟩
  cases l with
  | freg k =>
    have hk : ¬ fregKey s.fbank f = k := fun e => hl (by simp [State.fregLoc, e])
    simp [State.look, Memory.read_write, hk]
  | _ => rfl

theorem State.frame_drawReg (s : State) (w : Width) (i : RegIx) :
    s.frame (s.drawReg w i) (s.regLocs w i) :=
  State.frame_mono (State.frame_trans (s.frame_writeReg w i _) (State.frame_drawNext _)) (by simp)

theorem State.frame_drawF (s : State) (f : FRegIx) : s.frame (s.drawF f) [s.fregLoc f] :=
  State.frame_mono (State.frame_trans (s.frame_writeF f _) (State.frame_drawNext _)) (by simp)

theorem State.frame_memWrite {s t : State} {w : Width} {a : Addr} {v : BitVec w.bits}
    (h : s.memWrite w a v = .ok t) : s.frame t (ramLocs w a) := by
  unfold State.memWrite at h
  split at h
  · obtain rfl := Except.ok.inj h
    refine ⟨fun l hl => ?_, rfl⟩
    cases l with
    | ram k =>
      refine congrArg BitVec.toNat (Memory.read_writeSeq_off _ _ _ _ _ fun j hj e => hl ?_)
      simp only [ramLocs, List.mem_map, List.mem_range]
      exact ⟨j, hj, by rw [e]⟩
    | _ => rfl
  · cases h

theorem State.frame_rsWrite (s : State) (w : Width) (off : Nat) (v : BitVec w.bits) :
    s.frame (s.rsWrite w off v) (rsramLocs w off) := by
  refine ⟨fun l hl => ?_, rfl⟩
  cases l with
  | rsram k =>
    refine congrArg BitVec.toNat (Memory.read_writeSeq_off _ _ _ _ _ fun j hj e => hl ?_)
    simp only [rsramLocs, List.mem_map, List.mem_range]
    exact ⟨j, hj, by rw [e]⟩
  | _ => rfl

theorem State.frame_rsPushed (s : State) (w : Width) (v : BitVec w.bits) :
    s.frame (s.rsPushed w v) (.spr :: rsramLocs w s.spr.toNat) := by
  refine ⟨fun l hl => ?_, rfl⟩
  have h := (s.frame_rsWrite w s.spr.toNat v).1 l fun m => hl (List.mem_cons_of_mem _ m)
  cases l with
  | spr => simp at hl
  | _ => exact h

theorem State.frame_rsDropped (s : State) (w : Width) : s.frame (s.rsDropped w) [.spr] :=
  ⟨fun l hl => by cases l <;> first | rfl | simp at hl, rfl⟩

theorem State.frame_csWrite (s : State) (k : Nat) (a : Addr) : s.frame (s.csWrite k a) [.csram k] := by
  refine ⟨fun l hl => ?_, rfl⟩
  cases l with
  | csram j =>
    have hk : ¬ k = j := fun e => hl (by simp [e])
    simp [State.look, Memory.read_write, hk]
  | _ => rfl

theorem State.frame_hmemWrite (s : State) (k : Nat) (v : Word32) :
    s.frame (s.hmemWrite k v) [.hmem k] := by
  refine ⟨fun l hl => ?_, rfl⟩
  cases l with
  | hmem j =>
    have hk : ¬ k = j := fun e => hl (by simp [e])
    simp [State.look, Memory.read_write, hk]
  | _ => rfl

theorem State.frame_writeErrorId (s : State) (kind : ErrorKind) :
    s.frame (s.writeErrorId kind) [.hmem Config.errorId] := by
  cases kind
  · exact State.frame_mono (State.frame_trans (s.frame_hmemWrite _ _) (State.frame_drawNext _)) (by simp)
  · exact State.frame_mono (State.frame_trans (s.frame_hmemWrite _ _) (State.frame_drawNext _)) (by simp)
  · exact s.frame_hmemWrite _ _

end Sys2Proof.Machine
end

