-- ==== Sys2Proof/Laws/Ops.lean ====
section
/-! SUPPORT. Each shared operation said once: what it answers, and what the state it answers holds. -/

namespace Sys2Proof.Machine

/-! ## Sequencing -/

theorem withOk_eq_next {α : Type} {e : Except Fault α} {k : α → Result} {t : State} :
    withOk e k = .next t ↔ ∃ a, e = .ok a ∧ k a = .next t := by
  cases e <;> simp [withOk]

@[simp] theorem withOk_ok {α : Type} (a : α) (k : α → Result) : withOk (.ok a) k = k a := rfl

@[simp] theorem withOk_error {α : Type} (f : Fault) (k : α → Result) :
    withOk (.error f : Except Fault α) k = .fault f := rfl

theorem requireRegs_eq_next {is : List RegIx} {k : Result} {t : State} :
    requireRegs is k = .next t ↔ is.all regOk = true ∧ k = .next t := by
  unfold requireRegs; split <;> simp_all

theorem requireRegs_pos {is : List RegIx} (h : is.all regOk = true) (k : Result) :
    requireRegs is k = k := if_pos h

theorem requireRegs_neg {is : List RegIx} (h : is.all regOk = false) (k : Result) :
    requireRegs is k = .fault .badRegisterIndex := if_neg (by simp [h])

theorem requireFregs_eq_next {fs : List FRegIx} {k : Result} {t : State} :
    requireFregs fs k = .next t ↔ fs.all fregOk = true ∧ k = .next t := by
  unfold requireFregs; split <;> simp_all

theorem requireFregs_pos {fs : List FRegIx} (h : fs.all fregOk = true) (k : Result) :
    requireFregs fs k = k := if_pos h

theorem requireFregs_neg {fs : List FRegIx} (h : fs.all fregOk = false) (k : Result) :
    requireFregs fs k = .fault .badFloatRegisterIndex := if_neg (by simp [h])

/-! ## Registers -/

/-- The registers of one operand are different cells. -/
theorem regKey_inj {b : Byte} {i : RegIx} {w : Width} {j k : Nat} (hj : j < w.bytes) (hk : k < w.bytes)
    (h : regKey b i j = regKey b i k) : j = k := by
  have : w.bytes ≤ 4 := by cases w <;> decide
  unfold regKey Config.nRegs at h
  omega

/-- The registers of an operand lie in the register file. -/
theorem regKey_lt (b : Byte) (i : RegIx) (j : Nat) : regKey b i j < Config.nRegs * Config.nRegBanks := by
  have := b.isLt
  unfold regKey Config.nRegs Config.nRegBanks
  omega

theorem fregKey_lt {b : Byte} {f : FRegIx} (h : fregOk f = true) :
    fregKey b f < Config.nFregs * Config.nFregBanks := by
  have := b.isLt
  simp only [fregOk, decide_eq_true_eq] at h
  unfold fregKey Config.nFregs Config.nFregBanks
  omega

/-- A register operand reads as what was written to it (R22). -/
@[simp] theorem State.readReg_writeReg (s : State) (w : Width) (i : RegIx) (v : BitVec w.bits) :
    (s.writeReg w i v).readReg w i = v := by
  refine (be_congr fun j hj => ?_).trans (be_byteOf w v)
  exact Memory.read_writeSeq_on _ _ _ _ _ hj fun a ha b hb e => regKey_inj ha hb e

/-- What a register operand reads depends on its own registers and RBANK only. -/
theorem State.readReg_congr {s t : State} {w : Width} {i : RegIx} (hb : t.rbank = s.rbank)
    (h : ∀ j < w.bytes, Memory.read t.regs (regKey s.rbank i j) = Memory.read s.regs (regKey s.rbank i j)) :
    t.readReg w i = s.readReg w i := by
  unfold State.readReg; rw [hb]; exact be_congr h

@[simp] theorem State.readF_writeF (s : State) (f : FRegIx) (v : Word32) : (s.writeF f v).readF f = v := by
  simp [State.readF, Memory.read_write]

@[simp] theorem State.readReg_drawFlags (s : State) (w : Width) (i : RegIx) :
    s.drawFlags.readReg w i = s.readReg w i := rfl

@[simp] theorem State.readF_drawFlags (s : State) (f : FRegIx) : s.drawFlags.readF f = s.readF f := rfl

/-! ## RAM (R62, R63, R65) -/

theorem State.memRead_eq_ok {s : State} {w : Width} {a : Addr} {v : BitVec w.bits} :
    s.memRead w a = .ok v ↔ a.toNat + w.bytes ≤ Config.addrWrap ∧
      v = be w fun j => Memory.read s.ram (a.toNat + j) := by
  unfold State.memRead; split <;> simp_all [eq_comm]

theorem State.memRead_error {s : State} {w : Width} {a : Addr} (h : ¬ a.toNat + w.bytes ≤ Config.addrWrap) :
    s.memRead w a = .error .accessCrossesTop := if_neg h

/-- A store of an operand reads back (R85). -/
theorem State.memRead_memWrite {s t : State} {w : Width} {a : Addr} {v : BitVec w.bits}
    (h : s.memWrite w a v = .ok t) : t.memRead w a = .ok v := by
  unfold State.memWrite at h
  split at h
  case isFalse => cases h
  case isTrue hw =>
    obtain rfl := Except.ok.inj h
    refine State.memRead_eq_ok.2 ⟨hw, ((be_congr fun j hj => ?_).trans (be_byteOf w v)).symm⟩
    exact Memory.read_writeSeq_on _ _ _ _ _ hj fun a ha b hb e => by omega

theorem State.memWrite_isOk {s : State} {w : Width} {a : Addr} (v : BitVec w.bits)
    (h : a.toNat + w.bytes ≤ Config.addrWrap) : ∃ t, s.memWrite w a v = .ok t := ⟨_, if_pos h⟩

/-- Each byte of a stored operand (R63). -/
theorem State.memWrite_byte {s t : State} {w : Width} {a : Addr} {v : BitVec w.bits}
    (h : s.memWrite w a v = .ok t) (j : Nat) (hj : j < w.bytes) :
    Memory.read t.ram (a.toNat + j) = byteOf w v j := by
  unfold State.memWrite at h
  split at h
  · obtain rfl := Except.ok.inj h
    exact Memory.read_writeSeq_on _ _ _ _ _ hj fun a ha b hb e => by omega
  · cases h

/-! ## The fetch primitives (R92) -/

theorem State.canFetch_iff {s : State} {x : Nat × Width} :
    s.canFetch x = true ↔ (s.ipo + BitVec.ofNat 24 x.1).toNat + x.2.bytes ≤ Config.addrWrap := by
  unfold State.canFetch State.fetch
  by_cases h : (s.ipo + BitVec.ofNat 24 x.1).toNat + x.2.bytes ≤ Config.addrWrap
  · simp only [State.advance_ipo, State.memRead_eq_ok.2 ⟨h, rfl⟩, h, iff_true]; rfl
  · simp only [State.advance_ipo, State.memRead_error h, h, iff_false]; simp [Except.map, Except.isOk,
      Except.toBool]

/-- The value of a fetch is the value of the instruction's bytes there. -/
theorem State.fetch_eq {s : State} {k : Nat} {w : Width} (h : s.canFetch (k, w) = true) :
    (s.advance k).fetch w = .ok (be w fun j => s.instrByte (k + j), s.advance (k + w.bytes)) := by
  rw [State.canFetch_iff] at h
  have hv : (be w fun j => Memory.read (s.advance k).ram ((s.advance k).ipo.toNat + j)) =
      be w fun j => s.instrByte (k + j) := by
    refine be_congr fun j hj => congrArg (Memory.read s.ram) ?_
    unfold Config.addrWrap at h
    simp only [State.advance_ipo, BitVec.toNat_add, BitVec.toNat_ofNat] at h ⊢
    omega
  have hs : (s.advance k).advance w.bytes = s.advance (k + w.bytes) := by
    unfold State.advance
    simp only [State.mk.injEq, true_and, and_true]
    apply BitVec.eq_of_toNat_eq
    simp only [BitVec.toNat_add, BitVec.toNat_ofNat]
    omega
  have hr : (s.advance k).memRead w (s.advance k).ipo = .ok (be w fun j => s.instrByte (k + j)) :=
    State.memRead_eq_ok.2 ⟨h, hv.symm⟩
  rw [State.fetch, hr, Except.map, hs]

/-! ## Error entry and the stop (R404, R408) -/

/-- The id entry after an error (R406). -/
theorem State.raiseError_eq_ok {s t : State} {kind : ErrorKind} :
    s.raiseError kind = .ok t ↔ (s.hmemRead Config.errorHandlerAddress).toNat ≤ Config.max24Bit ∧
      t = ((s.writeErrorId kind).jump ((s.hmemRead Config.errorHandlerAddress).setWidth 24)).drawFlags := by
  unfold State.raiseError; split <;> simp_all [eq_comm]

theorem State.frame_raiseError {s t : State} {kind : ErrorKind} (h : s.raiseError kind = .ok t) :
    s.frame t [.hmem Config.errorId, .ipo, .flags] := by
  obtain ⟨-, rfl⟩ := State.raiseError_eq_ok.1 h
  exact State.frame_trans (State.frame_trans (s.frame_writeErrorId kind) (State.frame_jump _ _))
    (State.frame_drawFlags _)

theorem State.raiseError_ipo {s t : State} {kind : ErrorKind} (h : s.raiseError kind = .ok t) :
    t.ipo = (s.hmemRead Config.errorHandlerAddress).setWidth 24 := by
  obtain ⟨-, rfl⟩ := State.raiseError_eq_ok.1 h; rfl

theorem State.raiseError_id {s t : State} (h : s.raiseError .divZero = .ok t) :
    t.hmemRead Config.errorId = s.params.errIdDiv0 := by
  obtain ⟨-, rfl⟩ := State.raiseError_eq_ok.1 h
  simp [State.hmemRead, State.writeErrorId, Memory.read_write]

theorem State.raiseError_isOk {s : State} (kind : ErrorKind)
    (h : (s.hmemRead Config.errorHandlerAddress).toNat ≤ Config.max24Bit) :
    ∃ t, s.raiseError kind = .ok t := ⟨_, if_pos h⟩

/-! ## The call stack (R270, R271) -/

theorem State.callPush_eq_ok {s t : State} {ret : Addr} :
    s.callPush ret = .ok t ↔ s.spc.toNat < Config.csramEntries ∧
      t = { s.csWrite s.spc.toNat ret with spc := s.spc + 1 } := by
  unfold State.callPush; split <;> simp_all [eq_comm]

theorem State.frame_callPush {s t : State} {ret : Addr} (h : s.callPush ret = .ok t) :
    s.frame t [.csram s.spc.toNat, .spc] := by
  obtain ⟨-, rfl⟩ := State.callPush_eq_ok.1 h
  refine ⟨fun l hl => ?_, rfl⟩
  have := (s.frame_csWrite s.spc.toNat ret).1 l fun m => hl (by simp at m; simp [m])
  cases l with
  | spc => simp at hl
  | _ => exact this

theorem State.retPop_zero {s : State} (h : s.spc = 0) : s.retPop = s.stop := if_pos h

theorem State.retPop_pos {s : State} (h : s.spc ≠ 0) :
    s.retPop = ({ s with spc := s.spc - 1 }.jump (s.csRead (s.spc - 1).toNat)).drawFlags := if_neg h

theorem State.frame_retPop {s : State} (h : s.spc ≠ 0) : s.frame s.retPop [.spc, .ipo, .flags] := by
  rw [State.retPop_pos h]
  have h1 : s.frame { s with spc := s.spc - 1 } [.spc] :=
    ⟨fun l hl => by cases l <;> first | rfl | simp at hl, rfl⟩
  exact State.frame_trans (State.frame_trans h1 (State.frame_jump _ _)) (State.frame_drawFlags _)

/-! ## The register stack (R281, R282) -/

theorem State.rsRead_rsWrite (s : State) (w : Width) (off : Nat) (v : BitVec w.bits) :
    (s.rsWrite w off v).rsRead w off = v := by
  refine (be_congr fun j hj => ?_).trans (be_byteOf w v)
  exact Memory.read_writeSeq_on _ _ _ _ _ hj fun a ha b hb e => by omega

theorem State.rsPush_fits {s : State} {w : Width} (v : BitVec w.bits) (h : s.rsOverflows w = false) :
    s.rsPush w v = .next (s.rsPushed w v).drawFlags := by
  simp [State.rsPush, h]

theorem State.rsPush_overflow {s : State} {w : Width} (v : BitVec w.bits) (h : s.rsOverflows w = true) :
    s.rsPush w v = withOk (s.raiseError .rsOverflow) .next := by
  simp [State.rsPush, h]

theorem State.rsPop_fits {s : State} {w : Width} {put : BitVec w.bits → State → State}
    {any : State → State} (h : s.rsUnderflows w = false) :
    s.rsPop w put any = .next (put (s.rsTop w) (s.rsDropped w)).drawFlags := by
  simp [State.rsPop, h]

theorem State.rsPop_underflow {s : State} {w : Width} {put : BitVec w.bits → State → State}
    {any : State → State} (h : s.rsUnderflows w = true) :
    s.rsPop w put any = withOk (s.raiseError .rsUnderflow) fun t => .next (any t) := by
  simp [State.rsPop, h]

end Sys2Proof.Machine
end

