-- ==== Sys2Proof/Laws/Invariant.lean ====
section
/-! SUPPORT. Every operation over a memory or a register file keeps the invariant `State.Inv`, the
canonical form of each memory with it; the memories of `State.reset` are in canonical form. -/

namespace Sys2Proof.Machine

/-- The memories and register files right after reset are in canonical form. -/
theorem reset_memories_wf :
    Memory.wf (Config.nRegs * Config.nRegBanks) State.reset.regs = true ∧
    Memory.wf (Config.nFregs * Config.nFregBanks) State.reset.fregs = true ∧
    Memory.wf Config.ramBytes State.reset.ram = true ∧
    Memory.wf Config.rsramBytes State.reset.rsram = true ∧
    Memory.wf Config.csramEntries State.reset.csram = true ∧
    Memory.wf Config.hmemEntries State.reset.hmem = true := ⟨rfl, rfl, rfl, rfl, rfl, rfl⟩

theorem State.inv_drawFlags {s : State} (h : s.Inv) : s.drawFlags.Inv := h

theorem State.inv_drawNext {s : State} (h : s.Inv) : s.drawNext.Inv := h

theorem State.inv_jump {s : State} (a : Addr) (h : s.Inv) : (s.jump a).Inv := h

theorem State.inv_advance {s : State} (n : Nat) (h : s.Inv) : (s.advance n).Inv := h

theorem State.inv_stop {s : State} (h : s.Inv) : s.stop.Inv := h

theorem State.inv_writeReg {s : State} (w : Width) (i : RegIx) (v : BitVec w.bits) (h : s.Inv) :
    (s.writeReg w i v).Inv :=
  ⟨Memory.wf_writeSeq h.1 fun j _ => regKey_lt s.rbank i j, h.2⟩

theorem State.inv_writeF {s : State} {f : FRegIx} (v : Word32) (hf : fregOk f = true) (h : s.Inv) :
    (s.writeF f v).Inv :=
  ⟨h.1, Memory.wf_write h.2.1 (fregKey_lt hf), h.2.2⟩

theorem State.inv_memWrite {s t : State} {w : Width} {a : Addr} {v : BitVec w.bits}
    (e : s.memWrite w a v = .ok t) (h : s.Inv) : t.Inv := by
  obtain ⟨h1, h2, h3, h4⟩ := h
  unfold State.memWrite at e
  split at e
  case isFalse => cases e
  case isTrue ha =>
    obtain rfl := Except.ok.inj e
    refine ⟨h1, h2, Memory.wf_writeSeq h3 fun j hj => ?_, h4⟩
    unfold Config.addrWrap at ha
    unfold Config.ramBytes
    omega

theorem State.inv_hmemWrite {s : State} {k : Nat} (v : Word32) (hk : k < Config.hmemEntries) (h : s.Inv) :
    (s.hmemWrite k v).Inv := by
  obtain ⟨h1, h2, h3, h4, h5, h6, h7⟩ := h
  exact ⟨h1, h2, h3, h4, h5, Memory.wf_write h6 hk, h7⟩

theorem State.inv_raiseError {s t : State} {kind : ErrorKind} (e : s.raiseError kind = .ok t)
    (h : s.Inv) : t.Inv := by
  obtain ⟨-, rfl⟩ := State.raiseError_eq_ok.1 e
  have hk : Config.errorId < Config.hmemEntries := by decide
  cases kind
  · exact State.inv_hmemWrite _ hk h
  · exact State.inv_hmemWrite _ hk h
  · exact State.inv_hmemWrite _ hk h

theorem State.inv_callPush {s t : State} {ret : Addr} (e : s.callPush ret = .ok t) (h : s.Inv) :
    t.Inv := by
  obtain ⟨hs, rfl⟩ := State.callPush_eq_ok.1 e
  obtain ⟨h1, h2, h3, h4, h5, h6, h7, h8, h9⟩ := h
  refine ⟨h1, h2, h3, h4, Memory.wf_write h5 hs, h6, h7, ?_, h9⟩
  unfold Config.csramEntries at hs ⊢
  show (s.spc + 1#24).toNat ≤ _
  rw [BitVec.toNat_add]
  simp only [BitVec.toNat_ofNat]
  omega

theorem State.inv_retPop {s : State} (h : s.Inv) : s.retPop.Inv := by
  by_cases hz : s.spc = 0
  · rw [State.retPop_zero hz]; exact h
  · rw [State.retPop_pos hz]
    obtain ⟨h1, h2, h3, h4, h5, h6, h7, h8, h9⟩ := h
    refine ⟨h1, h2, h3, h4, h5, h6, h7, ?_, h9⟩
    unfold Config.csramEntries at h8 ⊢
    show (s.spc - 1#24).toNat ≤ _
    have : s.spc.toNat ≠ 0 := fun e => hz (BitVec.eq_of_toNat_eq e)
    rw [BitVec.toNat_sub]
    simp only [BitVec.toNat_ofNat]
    omega

theorem State.inv_rsPushed {s : State} {w : Width} (v : BitVec w.bits) (hf : s.rsOverflows w = false)
    (h : s.Inv) : (s.rsPushed w v).Inv := by
  obtain ⟨h1, h2, h3, h4, h5, h6, h7, h8⟩ := h
  replace hf := of_decide_eq_false hf
  unfold Config.rsramBytes at hf
  refine ⟨h1, h2, h3, Memory.wf_writeSeq h4 fun j hj => ?_, h5, h6, ?_, h8⟩
  · unfold Config.rsramBytes; omega
  · simp only [State.rsPushed_spr, Config.rsramBytes, BitVec.toNat_add, BitVec.toNat_ofNat]
    omega

theorem State.inv_rsDropped {s : State} {w : Width} (hf : s.rsUnderflows w = false) (h : s.Inv) :
    (s.rsDropped w).Inv := by
  obtain ⟨h1, h2, h3, h4, h5, h6, h7, h8⟩ := h
  replace hf := of_decide_eq_false hf
  refine ⟨h1, h2, h3, h4, h5, h6, ?_, h8⟩
  have : w.bytes ≤ 4 := by cases w <;> decide
  unfold Config.rsramBytes at h7 ⊢
  simp only [State.rsDropped_spr, BitVec.toNat_sub, BitVec.toNat_ofNat]
  omega

theorem State.inv_drawReg {s : State} (w : Width) (i : RegIx) (h : s.Inv) : (s.drawReg w i).Inv :=
  State.inv_writeReg w i _ h

theorem State.inv_drawF {s : State} {f : FRegIx} (hf : fregOk f = true) (h : s.Inv) :
    (s.drawF f).Inv := State.inv_writeF _ hf h

end Sys2Proof.Machine
end

