-- ==== Sys2Proof/Laws/Launch.lean ====
section
/-! SUPPORT. What the loader accepts and what it puts in RAM, and what the launch answers. -/

namespace Sys2Proof.Machine

theorem Block.inRange_iff {b : Block} :
    b.inRange = true ↔ b.origin < Config.addrWrap ∧ b.origin + b.bytes.length ≤ Config.addrWrap := by
  rw [Block.inRange, Bool.and_eq_true, decide_eq_true_iff, decide_eq_true_iff]; rfl

/-- Two blocks overlap just where they share an address. -/
theorem Block.overlaps_iff {b c : Block} : b.overlaps c = true ↔
    ∃ i j, i < b.bytes.length ∧ j < c.bytes.length ∧ b.origin + i = c.origin + j := by
  rw [Block.overlaps, decide_eq_true_iff, Block.stop, Block.stop]
  constructor
  · intro h
    exact ⟨max b.origin c.origin - b.origin, max b.origin c.origin - c.origin, by omega, by omega, by omega⟩
  · rintro ⟨i, j, hi, hj, e⟩
    omega

/-- What `loadable` says. -/
theorem loadable_iff {bs : List Block} : loadable bs = true ↔
    (∀ b ∈ bs, b.inRange = true) ∧ bs.Pairwise fun b c => b.overlaps c = false := by
  induction bs with
  | nil => simp [loadable]
  | cons b r ih =>
    simp only [loadable, Bool.and_eq_true, ih, List.all_eq_true, Bool.not_eq_true', List.mem_cons,
      forall_eq_or_imp, List.pairwise_cons]
    tauto

/-- A byte outside a block is as it was. -/
theorem Block.read_load_off {b : Block} (m : Memory 8) {a : Nat}
    (h : ∀ j < b.bytes.length, b.origin + j ≠ a) : Memory.read (b.load m) a = Memory.read m a :=
  Memory.read_writeSeq_off m _ _ a _ h

/-- A byte of a block stands at its address. -/
theorem Block.read_load_on {b : Block} (m : Memory 8) {j : Nat} (h : j < b.bytes.length) :
    Memory.read (b.load m) (b.origin + j) = b.bytes[j] := by
  refine (Memory.read_writeSeq_on m (b.origin + ·) _ _ j h fun i _ k _ e => by simpa using e).trans ?_
  simp [List.getD_eq_getElem?_getD, h]

/-- A byte outside every block is as it was. -/
theorem read_loadBlocks_off {a : Nat} : ∀ {bs : List Block} (m : Memory 8),
    (∀ b ∈ bs, ∀ j < b.bytes.length, b.origin + j ≠ a) →
      Memory.read (loadBlocks m bs) a = Memory.read m a
  | [], _, _ => rfl
  | b :: _, m, h =>
    (read_loadBlocks_off (b.load m) fun c hc => h c (List.mem_cons_of_mem _ hc)).trans
      (Block.read_load_off m (h b List.mem_cons_self))

/-- A byte of a block that overlaps no other stands at its address. -/
theorem read_loadBlocks_on {b : Block} {j : Nat} (hj : j < b.bytes.length) :
    ∀ {bs : List Block} (m : Memory 8), (bs.Pairwise fun b c => b.overlaps c = false) → b ∈ bs →
      Memory.read (loadBlocks m bs) (b.origin + j) = b.bytes[j]
  | c :: r, m, hp, hb => by
    obtain ⟨hc, hr⟩ := List.pairwise_cons.1 hp
    rcases List.mem_cons.1 hb with rfl | hb
    · refine (read_loadBlocks_off (b.load m) fun d hd k hk e => ?_).trans (Block.read_load_on m hj)
      have := Block.overlaps_iff.2 ⟨j, k, hj, hk, e.symm⟩
      rw [hc d hd] at this
      cases this
    · exact read_loadBlocks_on hj (c.load m) hr hb

/-- The loader keeps the canonical form of RAM. -/
theorem wf_loadBlocks : ∀ {bs : List Block} {m : Memory 8}, Memory.wf Config.ramBytes m = true →
    (∀ b ∈ bs, b.inRange = true) → Memory.wf Config.ramBytes (loadBlocks m bs) = true
  | [], _, hm, _ => hm
  | b :: r, m, hm, h => by
    refine wf_loadBlocks (m := b.load m) (Memory.wf_writeSeq hm fun j hj => ?_) fun c hc =>
      h c (List.mem_cons_of_mem _ hc)
    have := (Block.inRange_iff.1 (h b List.mem_cons_self)).2
    unfold Config.addrWrap at this
    unfold Config.ramBytes
    omega

/-- What a launch answers when it answers a next state (R440). -/
theorem State.launch_eq_next {s t : State} {bs : List Block} : s.launch bs = .next t ↔
    loadable bs = true ∧ t = { s with ram := loadBlocks s.ram bs, spr := 0, spc := 0,
                                      ipo := s.params.runAddress, running := true } := by
  unfold State.launch
  split
  · exact ⟨fun h => ⟨‹_›, (Host.Outcome.next.inj h).symm⟩, fun h => congrArg _ h.2.symm⟩
  · exact ⟨fun h => (nomatch h), fun h => absurd h.1 ‹_›⟩

/-- A set of blocks that the loader does not accept (R114). -/
theorem State.launch_refused {s : State} {bs : List Block} (h : loadable bs = false) :
    s.launch bs = .refused .badLoadImage := if_neg (by rw [h]; decide)

/-- A launch keeps the invariant. -/
theorem State.inv_launch {s t : State} {bs : List Block} (h : s.Inv) (e : s.launch bs = .next t) :
    t.Inv := by
  obtain ⟨hl, rfl⟩ := State.launch_eq_next.1 e
  obtain ⟨h1, h2, h3, h4, h5, h6, -, -, h9⟩ := h
  have hspr : (0 : BitVec 24).toNat < Config.rsramBytes := by decide
  have hspc : (0 : BitVec 24).toNat ≤ Config.csramEntries := by decide
  exact ⟨h1, h2, wf_loadBlocks h3 (loadable_iff.1 hl).1, h4, h5, h6, hspr, hspc, h9⟩

end Sys2Proof.Machine
end

