-- ==== Sys2Proof/Tests/Slice0.lean ====
section
/-! SUPPORT. The model's own tests: the checks of WellFormed, the decoding of words written out from the
spec's encodings, one step on small states (the expected values are those of 95_test_vectors.md or of
the examples in the rules), and for each statement with hypotheses a state and operands that meet them
(`witness_…`, a boundary value for each clause). -/

namespace Sys2Proof.Tests

open Sys2Proof.Machine

/-! ## WellFormed: each check refuses an ill-formed term -/

theorem test_wf_register_index :
    (Instr.ldRN 26 0).wf launchParams = false ∧ (Instr.ldRR 0 31).wf launchParams = false ∧
    (Instr.ldRAbsR8 0 0 26).wf launchParams = false ∧ (Instr.ldRIndR24 0 0 26).wf launchParams = false ∧
    (Instr.push (.form 26)).wf launchParams = false ∧
    (Instr.setvar (.form ⟨.reg 26, .imm 0⟩)).wf launchParams = false ∧
    (Instr.ldRN 25 0).wf launchParams = true := by decide

theorem test_wf_float_register_index :
    (Instr.ldRFr 0 16).wf launchParams = false ∧ (Instr.pop32 (.form (.fr 16))).wf launchParams = false ∧
    (Instr.ldRFr 0 15).wf launchParams = true := by decide

theorem test_wf_condition_index :
    (Instr.jpCond 16 0).wf launchParams = false ∧ (Instr.retif (.form 16)).wf launchParams = false ∧
    (Instr.jpCond 15 0).wf launchParams = true := by decide

theorem test_wf_subopcode_range :
    (Instr.ldUndef 243).wf launchParams = false ∧ (Instr.ldRr (.unlisted 27)).wf launchParams = false ∧
    (Instr.ldMem (.unlisted 57)).wf launchParams = false ∧ (Instr.addUndef 243).wf launchParams = false ∧
    (Instr.addR (.unlisted 12)).wf launchParams = false ∧ (Instr.subUndef 0).wf launchParams = false ∧
    (Instr.ldUndef 244).wf launchParams = true := by decide

theorem test_wf_parameter_needed :
    (Instr.ldRrrInd 0 0).wf { launchParams with subopRrrInd := none } = false ∧
    (Instr.ldAbsR 0 0).wf { launchParams with subopAbsR := none } = false ∧
    (Instr.jpNnn 0).wf { launchParams with jpNnn := none } = false ∧
    (Instr.jpOther 0 0).wf launchParams = false ∧
    (Instr.retif (.form 0)).wf { launchParams with subops := [] } = false ∧
    (Instr.setvar (.form ⟨.imm 0, .imm 0⟩)).wf { launchParams with subops := [⟨0xBE, .packed⟩] } = false ∧
    (Instr.setvar (.form ⟨.imm 0, .reg 0⟩)).wf { launchParams with subops := [⟨0xBE, .packed⟩] } = true :=
  by decide

theorem test_wf_listing_needed :
    (Instr.push (.form 0)).wf { launchParams with elsewhere := [] } = false ∧
    (Instr.push (.unlisted 0)).wf launchParams = false ∧
    (Instr.ldRr (.form (.imm 0 0))).wf launchParams = false ∧
    (Instr.and16 0).wf launchParams = false ∧ (Instr.and 0).wf launchParams = true := by decide

theorem test_wf_same_form_once :
    (Instr.addR (.form (.imm 0 0))).wf launchParams = false ∧
    (Instr.sub (.form (.fr 0 0))).wf launchParams = false ∧
    (Instr.addR (.form (.fr 0 15))).wf launchParams = true := by decide

theorem test_wf_params :
    launchParams.wf = true ∧ { launchParams with subopRrrInd := some 26 }.wf = false ∧
    { launchParams with subopAbsR := some 57 }.wf = false ∧
    { launchParams with jpCond := some 0 }.wf = false ∧
    { launchParams with elsewhere := [⟨0, .push .w8⟩, ⟨0, .push .w16⟩] }.wf = false ∧
    { launchParams with elsewhere := [⟨12, .ldImm .w16⟩] }.wf = false ∧
    { launchParams with subops := [⟨0x1C, .present⟩] }.wf = false ∧
    { launchParams with elsewhere := [⟨0x20, .retif⟩, ⟨0x3F, .retif⟩] }.wf = true := by decide

/-! ## Decoding: words written out from the encodings of the spec

A byte 1 that the spec leaves open is written 0x20 where a row reads it as a byte or as variant 1 and
index 0. -/

/-- Parameters that list the width suffixes of every shared primary opcode as bytes 0x20, 0x40 and
0x60, and forms of the wide LD groups. -/
def listing : Params :=
  { launchParams with
    suffixes :=
      ([0x02, 0x03, 0x0D, 0x0E, 0x0F, 0x13, 0x14, 0x21, 0x30, 0x31, 0x32, 0x33] : List Byte).flatMap
        fun op => [⟨op, 0x20, .w16⟩, ⟨op, 0x40, .w24⟩, ⟨op, 0x60, .w32⟩],
    elsewhere := launchForms ++
      [⟨13, .ldImm .w16⟩, ⟨14, .ldReg .w16⟩, ⟨15, .ldMem .w16 .abs⟩, ⟨27, .ldImm .w24⟩,
       ⟨42, .ldImm .w32⟩, ⟨43, .ldMem .w32 .indR8⟩, ⟨59, .stReg .w16 .ind⟩, ⟨60, .stFr .abs⟩,
       ⟨228, .frFr⟩, ⟨229, .frMem .abs⟩] }

theorem test_decode_listing_wf : listing.wf = true := by decide

/-- The instruction that the launch parameters read. -/
def dec (bs : List Byte) : Except DecodeError Instr := decode launchParams bs

/-- The instruction that the listing reads. -/
def decL (bs : List Byte) : Except DecodeError Instr := decode listing bs

theorem test_decode_ld_byte :
    dec [0x01, 0x00, 0x0A, 0x5A] = .ok (.ldRN 10 0x5A) ∧
    dec [0x01, 0x01, 0x0A, 0x03] = .ok (.ldRR 10 3) ∧
    dec [0x01, 0x02, 0x0A, 0x08, 0x01, 0x01] = .ok (.ldRAbs 10 0x080101) ∧
    dec [0x01, 0x03, 0x0A, 0x08, 0x01, 0x00, 0x00, 0x00, 0x06] = .ok (.ldRAbsImm 10 0x080100 6) ∧
    dec [0x01, 0x04, 0x0A, 0x08, 0x01, 0x00, 0x03] = .ok (.ldRAbsR8 10 0x080100 3) ∧
    dec [0x01, 0x05, 0x0A, 0x08, 0x01, 0x00, 0x04] = .ok (.ldRAbsR16 10 0x080100 4) ∧
    dec [0x01, 0x06, 0x0A, 0x08, 0x01, 0x00, 0x06] = .ok (.ldRAbsR24 10 0x080100 6) ∧
    dec [0x01, 0x07, 0x0A, 0x00] = .ok (.ldRInd 10 0) ∧
    dec [0x01, 0x08, 0x0A, 0x00, 0x00, 0x00, 0x07] = .ok (.ldRIndImm 10 0 7) ∧
    dec [0x01, 0x09, 0x0A, 0x00, 0x03] = .ok (.ldRIndR8 10 0 3) ∧
    dec [0x01, 0x0A, 0x0A, 0x00, 0x04] = .ok (.ldRIndR16 10 0 4) ∧
    dec [0x01, 0x0B, 0x0A, 0x00, 0x06] = .ok (.ldRIndR24 10 0 6) ∧
    dec [0x01, 0x0C, 0x03, 0x0F] = .ok (.ldRFr 3 15) := by
  repeat' constructor

theorem test_decode_ld_other :
    dec [0x01, 0x24, 0x03, 0x00] = .ok (.ldRrrInd 3 0) ∧
    dec [0x01, 0x3A, 0x00, 0x12, 0x34, 0x50] = .ok (.ldAbsR 0 0x123450) ∧
    dec [0x01, 0x0D] = .ok (.ldRr (.unlisted 0x0D)) ∧ dec [0x01, 0x1A] = .ok (.ldRr (.unlisted 0x1A)) ∧
    dec [0x01, 0x1B] = .ok (.ldRrr (.unlisted 0x1B)) ∧ dec [0x01, 0x29] = .ok (.ldRrr (.unlisted 0x29)) ∧
    dec [0x01, 0x2A] = .ok (.ldRrrr (.unlisted 0x2A)) ∧
    dec [0x01, 0x39] = .ok (.ldRrrr (.unlisted 0x39)) ∧
    dec [0x01, 0x3B] = .ok (.ldMem (.unlisted 0x3B)) ∧ dec [0x01, 0xE3] = .ok (.ldMem (.unlisted 0xE3)) ∧
    dec [0x01, 0xE4] = .ok (.ldFr (.unlisted 0xE4)) ∧ dec [0x01, 0xF3] = .ok (.ldFr (.unlisted 0xF3)) ∧
    dec [0x01, 0xF4] = .ok (.ldUndef 0xF4) ∧ dec [0x01, 0xFF] = .ok (.ldUndef 0xFF) := by
  repeat' constructor

theorem test_decode_ld_listed :
    decL [0x01, 0x0D, 0x00, 0x12, 0x34] = .ok (.ldRr (.form (.imm 0 0x1234))) ∧
    decL [0x01, 0x0E, 0x00, 0x04] = .ok (.ldRr (.form (.reg 0 4))) ∧
    decL [0x01, 0x0F, 0x00, 0x08, 0x01, 0x00] = .ok (.ldRr (.form (.mem 0 (.abs 0x080100)))) ∧
    decL [0x01, 0x1B, 0x00, 0x12, 0x34, 0x56] = .ok (.ldRrr (.form (.imm 0 0x123456))) ∧
    decL [0x01, 0x2A, 0x00, 0x12, 0x34, 0x56, 0x78] = .ok (.ldRrrr (.form (.imm 0 0x12345678))) ∧
    decL [0x01, 0x2B, 0x00, 0x04, 0x07] = .ok (.ldRrrr (.form (.mem 0 (.indR8 4 7)))) ∧
    decL [0x01, 0x3B, 0x00, 0x04] = .ok (.ldMem (.form (.reg .w16 (.ind 4) 0))) ∧
    decL [0x01, 0x3C, 0x02, 0x08, 0x01, 0x00] = .ok (.ldMem (.form (.fr (.abs 0x080100) 2))) ∧
    decL [0x01, 0xE4, 0x01, 0x02] = .ok (.ldFr (.form (.fr 1 2))) ∧
    decL [0x01, 0xE5, 0x01, 0x08, 0x01, 0x00] = .ok (.ldFr (.form (.mem 1 (.abs 0x080100)))) := by
  repeat' constructor

theorem test_decode_arithmetic :
    dec [0x02, 0x00, 0x00, 0x0A] = .ok (.addRN 0 10) ∧
    dec [0x02, 0x01, 0x00, 0x01] = .ok (.addR (.form (.reg 0 1))) ∧
    dec [0x02, 0x0B, 0x06, 0x00, 0x03] = .ok (.addR (.form (.mem 6 (.indR24 0 3)))) ∧
    dec [0x02, 0x0C, 0x03, 0x0F] = .ok (.addR (.form (.fr 3 15))) ∧
    dec [0x02, 0x0C, 0x03] = .error .truncated ∧
    dec [0x02, 0x0D] = .ok (.addR (.unlisted 0x0D)) ∧ dec [0x02, 0xF3] = .ok (.addR (.unlisted 0xF3)) ∧ dec [0x02, 0xF4] = .ok (.addUndef 0xF4) ∧
    dec [0x03, 0x00, 0x00, 0x0A] = .ok (.sub (.form (.imm 0 10))) ∧
    dec [0x03, 0x02, 0x00, 0x12, 0x34, 0x56] = .ok (.sub (.form (.mem 0 (.abs 0x123456)))) ∧
    dec [0x03, 0x0C] = .ok (.sub (.unlisted 0x0C)) ∧ dec [0x03, 0xFF] = .ok (.subUndef 0xFF) ∧
    dec [0x04, 0x01, 0x00, 0x02] = .ok (.div (.form ⟨.w16, 0, 2⟩)) ∧
    dec [0x04, 0x04] = .ok (.div (.unlisted 0x04)) ∧
    dec [0x5C, 0x03, 0x00, 0x04] = .ok (.sdiv (.form ⟨.w32, 0, 4⟩)) := by
  repeat' constructor

theorem test_decode_control :
    dec [0x00, 0x00] = .ok .nop ∧ dec [0xFF, 0x00] = .ok .ret ∧
    dec [0x15, 0x00, 0x08, 0x01, 0x00] = .ok (.callNnn 0x080100) ∧
    dec [0x15, 0x28, 0x08, 0x01, 0x00] = .ok (.callCond 8 0x080100) ∧
    dec [0x15, 0x45] = .ok (.callOther 2 5) ∧
    dec [0x16, 0x00, 0x00, 0x00, 0x20] = .ok (.callrNnn 0x20) ∧
    dec [0x16, 0x2F, 0x00, 0x00, 0x20] = .ok (.callrCond 15 0x20) ∧
    dec [0x16, 0x60] = .ok (.callrOther 3 0) ∧
    dec [0x17, 0x00, 0x08, 0x01, 0x00] = .ok (.jpNnn 0x080100) ∧
    dec [0x17, 0x30, 0x08, 0x01, 0x00] = .ok (.jpCond 16 0x080100) ∧
    dec [0x17, 0xFF] = .ok (.jpOther 7 31) ∧
    dec [0x18, 0x00, 0xFF, 0xFF, 0xF0] = .ok (.jrNnn 0xFFFFF0) ∧
    dec [0x18, 0x20, 0x00, 0x00, 0x05] = .ok (.jrCond 0 5) ∧
    dec [0x18, 0x40] = .ok (.jrOther 2 0) ∧
    dec [0xFE, 0x0B] = .ok (.retif (.form 11)) ∧ dec [0xFE, 0x2B] = .ok (.retif (.unlisted 0x2B)) := by
  repeat' constructor

theorem test_decode_stack_and_variables :
    dec [0x1A, 0x00, 0x19] = .ok (.pop (.form 25)) ∧ dec [0x1A, 0x01, 0x00] = .ok (.pop16 (.form 0)) ∧
    dec [0x1A, 0x02, 0x00] = .ok (.pop24 (.form 0)) ∧
    dec [0x1A, 0x03, 0x00] = .ok (.pop32 (.form (.gen 0))) ∧
    dec [0x1A, 0x04, 0x0F] = .ok (.pop32 (.form (.fr 15))) ∧ dec [0x1A, 0x05] = .ok (.pop (.unlisted 5)) ∧
    dec [0x1C, 0x00, 0x19] = .ok (.push (.form 25)) ∧ dec [0x1C, 0x01, 0x00] = .ok (.push16 (.form 0)) ∧
    dec [0x1C, 0x02, 0x00] = .ok (.push24 (.form 0)) ∧
    dec [0x1C, 0x03, 0x00] = .ok (.push32 (.form (.gen 0))) ∧
    dec [0x1C, 0x04, 0x0F] = .ok (.push32 (.form (.fr 15))) ∧
    dec [0xBE, 0x00, 0x00, 0x00, 0xFF, 0xFF, 0x00, 0x08, 0x02, 0x00] =
      .ok (.setvar (.form ⟨.imm 65535, .imm 0x00080200⟩)) ∧
    dec [0xBE, 0x01, 0x04, 0x00, 0x00, 0xFF, 0xFF] = .ok (.setvar (.form ⟨.imm 65535, .reg 4⟩)) ∧
    dec [0xBE, 0x02, 0x04, 0x00, 0x08, 0x02, 0x00] = .ok (.setvar (.form ⟨.reg 4, .imm 0x00080200⟩)) ∧
    dec [0xBE, 0x03, 0x00, 0x04] = .ok (.setvar (.form ⟨.reg 0, .reg 4⟩)) ∧
    dec [0xBF, 0x00, 0x00, 0x00, 0x00, 0xFF, 0xFE] = .ok (.getvar (.form ⟨0, .imm 65534⟩)) ∧
    dec [0xBF, 0x02] = .ok (.getvar (.unlisted 2)) := by
  repeat' constructor

/-- The same operations where `SUBOP_PRESENT` is false, where byte 1 is packed, and where neither is
supplied (R95 to R99, D26). -/
theorem test_decode_by_pattern :
    decode { launchParams with subops := [⟨0x1C, .absent⟩] } [0x1C, 0x19] = .ok (.push (.form 25)) ∧
    decode { launchParams with subops := [⟨0x04, .absent⟩] } [0x04, 0x03, 0x02] =
      .ok (.div (.form ⟨.w8, 3, 2⟩)) ∧
    decode { launchParams with subops := [⟨0x04, .packed⟩], elsewhere := [⟨0x20, .div .w16⟩] }
      [0x04, 0x23, 0x02] = .ok (.div (.form ⟨.w16, 3, 2⟩)) ∧
    decode { launchParams with subops := [⟨0xBF, .packed⟩] } [0xBF, 0x03, 0x00, 0x00, 0xFF, 0xFE] =
      .ok (.getvar (.form ⟨3, .imm 65534⟩)) ∧
    decode { launchParams with subops := [⟨0xFE, .constant⟩] } [0xFE, 0x00, 0x08] =
      .ok (.retif (.form 8)) ∧
    decode { launchParams with subops := [] } [0x1C, 0x00, 0x19] = .ok (.push (.unlisted 0x00)) := by
  repeat' constructor

/-- The width suffixes of the shared primary opcodes (N29; log entry 27). -/
theorem test_decode_width_suffixes :
    decL [0x02, 0x20] = .ok (.add16 0x20) ∧
    decL [0x02, 0x40] = .ok (.add24 0x40) ∧
    decL [0x02, 0x60] = .ok (.add32 0x60) ∧
    decL [0x03, 0x20] = .ok (.sub16 0x20) ∧
    decL [0x03, 0x40] = .ok (.sub24 0x40) ∧
    decL [0x03, 0x60] = .ok (.sub32 0x60) ∧
    decL [0x0D, 0x00] = .ok (.and 0x00) ∧
    decL [0x0D, 0x20] = .ok (.and16 0x20) ∧
    decL [0x0D, 0x40] = .ok (.and24 0x40) ∧
    decL [0x0D, 0x60] = .ok (.and32 0x60) ∧
    decL [0x0E, 0x00] = .ok (.or 0x00) ∧
    decL [0x0E, 0x20] = .ok (.or16 0x20) ∧
    decL [0x0E, 0x40] = .ok (.or24 0x40) ∧
    decL [0x0E, 0x60] = .ok (.or32 0x60) ∧
    decL [0x0F, 0x00] = .ok (.xor 0x00) ∧
    decL [0x0F, 0x20] = .ok (.xor16 0x20) ∧
    decL [0x0F, 0x40] = .ok (.xor24 0x40) ∧
    decL [0x0F, 0x60] = .ok (.xor32 0x60) ∧
    decL [0x13, 0x00] = .ok (.inc 0x00) ∧
    decL [0x13, 0x20] = .ok (.inc16 0x20) ∧
    decL [0x13, 0x40] = .ok (.inc24 0x40) ∧
    decL [0x13, 0x60] = .ok (.inc32 0x60) ∧
    decL [0x14, 0x00] = .ok (.dec 0x00) ∧
    decL [0x14, 0x20] = .ok (.dec16 0x20) ∧
    decL [0x14, 0x40] = .ok (.dec24 0x40) ∧
    decL [0x14, 0x60] = .ok (.dec32 0x60) ∧
    decL [0x21, 0x00] = .ok (.djnz 0x00) ∧
    decL [0x21, 0x20] = .ok (.djnz16 0x20) ∧
    decL [0x21, 0x40] = .ok (.djnz24 0x40) ∧
    decL [0x21, 0x60] = .ok (.djnz32 0x60) ∧
    decL [0x31, 0x00] = .ok (.nand 0x00) ∧
    decL [0x31, 0x20] = .ok (.nand16 0x20) ∧
    decL [0x31, 0x40] = .ok (.nand24 0x40) ∧
    decL [0x31, 0x60] = .ok (.nand32 0x60) ∧
    decL [0x32, 0x00] = .ok (.nor 0x00) ∧
    decL [0x32, 0x20] = .ok (.nor16 0x20) ∧
    decL [0x32, 0x40] = .ok (.nor24 0x40) ∧
    decL [0x32, 0x60] = .ok (.nor32 0x60) ∧
    decL [0x33, 0x00] = .ok (.xnor 0x00) ∧
    decL [0x33, 0x20] = .ok (.xnor16 0x20) ∧
    decL [0x33, 0x40] = .ok (.xnor24 0x40) ∧
    decL [0x33, 0x60] = .ok (.xnor32 0x60) ∧
    decL [0x30, 0x04] = .ok (.imply 0 4) ∧
    decL [0x30, 0x20] = .ok (.imply16 1 0) ∧
    decL [0x30, 0x40] = .ok (.imply24 2 0) ∧
    decL [0x30, 0x60] = .ok (.imply32 3 0) ∧
    decL [0x30, 0x24] = .ok (.imply 1 4) := by
  repeat' constructor

/-- Every other row to which the spec gives no operands (R93). -/
theorem test_decode_unspecified :
    dec [0x05, 0x25] = .ok (.mul 0x25) ∧
    dec [0x06, 0x25] = .ok (.sl 0x25) ∧
    dec [0x07, 0x25] = .ok (.sr 0x25) ∧
    dec [0x08, 0x25] = .ok (.rl 0x25) ∧
    dec [0x09, 0x25] = .ok (.rr 0x25) ∧
    dec [0x0A, 0x25] = .ok (.set 0x25) ∧
    dec [0x0B, 0x25] = .ok (.res 0x25) ∧
    dec [0x0C, 0x25] = .ok (.bit 0x25) ∧
    dec [0x10, 0x25] = .ok (.inv 0x25) ∧
    dec [0x11, 0x25] = .ok (.ex 1 5) ∧
    dec [0x12, 0x25] = .ok (.cp 1 5) ∧
    dec [0x1D, 0x25] = .ok (.int 0x25) ∧
    dec [0x1E, 0x25] = .ok (.rand 0x25) ∧
    dec [0x1F, 0x25] = .ok (.min 0x25) ∧
    dec [0x20, 0x25] = .ok (.max 0x25) ∧
    dec [0x24, 0x25] = .ok (.setf 0x25) ∧
    dec [0x25, 0x25] = .ok (.resf 0x25) ∧
    dec [0x26, 0x25] = .ok (.invf 0x25) ∧
    dec [0x27, 0x25] = .ok (.ldf 0x25) ∧
    dec [0x28, 0x25] = .ok (.regs 0x25) ∧
    dec [0x29, 0x25] = .ok (.wait 0x25) ∧
    dec [0x2A, 0x25] = .ok (.vdl 0x25) ∧
    dec [0x2B, 0x25] = .ok (.vcl 0x25) ∧
    dec [0x2C, 0x25] = .ok (.find 0x25) ∧
    dec [0x38, 0x25] = .ok (.getbits 0x25) ∧
    dec [0x39, 0x25] = .ok (.setbits 0x25) ∧
    dec [0x40, 0x25] = .ok (.memf 0x25) ∧
    dec [0x41, 0x25] = .ok (.memc 0x25) ∧
    dec [0x46, 0x25] = .ok (.ldregs 0x25) ∧
    dec [0x47, 0x25] = .ok (.stregs 0x25) ∧
    dec [0x5D, 0x25] = .ok (.smul 0x25) ∧
    dec [0x5E, 0x25] = .ok (.scp 0x25) ∧
    dec [0x5F, 0x25] = .ok (.fregs 0x25) ∧
    dec [0x60, 0x25] = .ok (.pow 0x25) ∧
    dec [0x61, 0x25] = .ok (.sqr 0x25) ∧
    dec [0x62, 0x25] = .ok (.cbr 0x25) ∧
    dec [0x63, 0x25] = .ok (.isqr 0x25) ∧
    dec [0x64, 0x25] = .ok (.isgn 0x25) ∧
    dec [0x66, 0x25] = .ok (.sin 0x25) ∧
    dec [0x67, 0x25] = .ok (.cos 0x25) ∧
    dec [0x68, 0x25] = .ok (.tan 0x25) ∧
    dec [0x80, 0x25] = .ok (.abs 0x25) ∧
    dec [0x81, 0x25] = .ok (.round 0x25) ∧
    dec [0x82, 0x25] = .ok (.floor 0x25) ∧
    dec [0x83, 0x25] = .ok (.ceil 0x25) ∧
    dec [0xA0, 0x25] = .ok (.play 0x25) ∧
    dec [0xC0, 0x25] = .ok (.rgb2hsl 0x25) ∧
    dec [0xC1, 0x25] = .ok (.hsl2rgb 0x25) ∧
    dec [0xC2, 0x25] = .ok (.rgb2hsb 0x25) ∧
    dec [0xC3, 0x25] = .ok (.hsb2rgb 0x25) ∧
    dec [0xFC, 0x25] = .ok (.debug 0x25) ∧
    dec [0xFD, 0x25] = .ok (.brk 0x25) := by
  repeat' constructor

theorem test_decode_unassigned :
    dec [0x19] = .error (.unassignedOpcode 0x19) ∧ dec [0x2D] = .error (.unassignedOpcode 0x2D) ∧
    dec [0xC4] = .error (.unassignedOpcode 0xC4) ∧ dec [0xFB] = .error (.unassignedOpcode 0xFB) := by
  repeat' constructor

theorem test_decode_truncated : dec [0x01, 0x00, 0x00] = .error .truncated := rfl

/-- Bits 7:5 of a register byte are ignored (R103). -/
theorem test_decode_register_byte_mask : dec [0x01, 0x00, 0x20, 0x05] = .ok (.ldRN 0 5) := rfl

/-- The word of the opcode table is read byte 0 first, from the least significant bits. -/
theorem test_decode_table_word :
    decodeTableWord 32 0x05000001 = some (.ldRN 0 5) ∧ decodeTableWord 8 0x17 = some (.jpNnn 0) ∧
    decodeTableWord 8 0x19 = none := by
  repeat' constructor

theorem test_encode_ld_abs :
    encode launchParams (.ldRAbs 0 0x123456) = some [0x01, 0x02, 0x00, 0x12, 0x34, 0x56] := rfl

/-! ## One step on a small state -/

/-- The cells of a run of bytes from an address. -/
def cells (a : Nat) : List Byte → Memory 8
  | [] => []
  | b :: r => if b = 0 then cells (a + 1) r else (a, b) :: cells (a + 1) r

/-- A state with its first registers and with an instruction at IPO. -/
def start (ipo : Addr) (regs bytes : List Byte) : State :=
  { State.reset with ipo := ipo, regs := cells 0 regs, ram := cells ipo.toNat bytes }

/-- What a result's next state shows. -/
def shows {α : Type} (r : Result) (f : State → α) : Option α :=
  match r with
  | .next t => some (f t)
  | _ => none

/-- The common start of 95_test_vectors.md V6: A = 08, B = 01, C = 00, D = 02, E = 00, F = 04, G = 00,
H = 00, I = 05, and the eight bytes 10 to 17 at 0x080100. -/
def v6 (bytes : List Byte) : State :=
  { start 0x080000 [0x08, 0x01, 0x00, 0x02, 0x00, 0x04, 0x00, 0x00, 0x05] bytes with
    ram := cells 0x080000 bytes ++ cells 0x080100 [0x10, 0x11, 0x12, 0x13, 0x14, 0x15, 0x16, 0x17] }

/-- K and IPO after a step from the common start. -/
def v6K (bytes : List Byte) : Option (Byte × Addr) :=
  shows (step (v6 bytes)) fun t => (t.readReg .w8 10, t.ipo)

theorem test_ld_v6_a :
    v6K [0x01, 0x00, 0x0A, 0x5A] = some (0x5A, 0x080004) ∧
    v6K [0x01, 0x01, 0x0A, 0x03] = some (0x02, 0x080004) ∧
    v6K [0x01, 0x02, 0x0A, 0x08, 0x01, 0x01] = some (0x11, 0x080006) ∧
    v6K [0x01, 0x03, 0x0A, 0x08, 0x01, 0x00, 0x00, 0x00, 0x06] = some (0x16, 0x080009) ∧
    v6K [0x01, 0x04, 0x0A, 0x08, 0x01, 0x00, 0x03] = some (0x12, 0x080007) ∧
    v6K [0x01, 0x05, 0x0A, 0x08, 0x01, 0x00, 0x04] = some (0x14, 0x080007) := by
  repeat' constructor

theorem test_ld_v6_b :
    v6K [0x01, 0x06, 0x0A, 0x08, 0x01, 0x00, 0x06] = some (0x15, 0x080007) ∧
    v6K [0x01, 0x07, 0x0A, 0x00] = some (0x10, 0x080004) ∧
    v6K [0x01, 0x08, 0x0A, 0x00, 0x00, 0x00, 0x07] = some (0x17, 0x080007) ∧
    v6K [0x01, 0x09, 0x0A, 0x00, 0x03] = some (0x12, 0x080005) ∧
    v6K [0x01, 0x0A, 0x0A, 0x00, 0x04] = some (0x14, 0x080005) ∧
    v6K [0x01, 0x0B, 0x0A, 0x00, 0x06] = some (0x15, 0x080005) := by
  repeat' constructor

/-- `LD A, (ABC)` reads at the old address (V6, R148). -/
theorem test_ld_destination_in_address :
    shows (step (v6 [0x01, 0x07, 0x00, 0x00])) (·.readReg .w24 0) = some 0x100100 := rfl

/-- `LD DEF, (ABC)` with the launch `SUBOP_rrr_IrrrI`, 0x24 (V6, R155). -/
theorem test_ld_rrr_ind :
    shows (step (v6 [0x01, 0x24, 0x03, 0x00])) (·.readReg .w24 3) = some 0x101112 := rfl

/-- `LD (0x080107), D` with the launch `SUBOP_InnnI_r`, 0x3A (V6, R157). -/
theorem test_ld_abs_r :
    shows (step (v6 [0x01, 0x3A, 0x03, 0x08, 0x01, 0x07])) (fun t => (t.memRead .w8 0x080107).toOption) =
      some (some 0x02) := rfl

/-- `01 0C 00 00` is refused (V6, R153), and SETVAR of entry 65533 (R34, R329). -/
theorem test_open_forms_refused :
    step (v6 [0x01, 0x0C, 0x00, 0x00]) = .refused (.unspecifiedInstruction "LD_r__fr") ∧
    exec (.setvar (.form ⟨.imm 65533, .imm 0⟩)) (v6 []) = .refused .systemVariable := by
  repeat' constructor

theorem test_ld_bad_register : step (v6 [0x01, 0x00, 0x1A, 0x05]) = .fault .badRegisterIndex := rfl

/-- `LD` into Y, Z, A wraps after Z (R22, R155). -/
theorem test_ld_register_wrap :
    shows (exec (.ldRrrInd 24 0) (v6 [])) (fun t => (t.readReg .w8 24, t.readReg .w8 25, t.readReg .w8 0)) =
      some (0x10, 0x11, 0x12) := rfl

theorem test_ld_offset_sign :
    exec (.ldRAbsR8 0 0x080000 0)
        { start 0 [0x80] [] with params := { launchParams with offsetSigned := none } } =
      .fault .offsetSignUnknown := rfl

/-- V5: 0x80 added to 0x080000, both ways. -/
theorem test_ea_offset_sign :
    ({ start 0 [0x80] [] with params := { launchParams with offsetSigned := some false } }.eaAbsR8
      0x080000 0).toOption = some 0x080080 ∧
    ({ start 0 [0x80] [] with params := { launchParams with offsetSigned := some true } }.eaAbsR8
      0x080000 0).toOption = some 0x07FF80 := by
  repeat' constructor

theorem test_ld_wide_immediate :
    shows (exec (.ldRr (.form (.imm 25 0x1234))) (start 0 [] []))
      (fun t => (t.readReg .w8 25, t.readReg .w8 0)) = some (0x12, 0x34) := rfl

theorem test_ld_store_word :
    shows (exec (.ldMem (.form (.reg .w16 (.abs 0x10) 0))) (start 0 [0x12, 0x34] []))
      (fun t => (Memory.read t.ram 0x10, Memory.read t.ram 0x11)) = some (0x12, 0x34) := rfl

theorem test_ld_float_from_memory :
    shows (exec (.ldFr (.form (.mem 3 (.abs 0x10)))) (start 0x10 [] [0x3F, 0x80, 0x00, 0x01]))
      (·.readF 3) = some 0x3F800001 := rfl

/-- V7: the sum wraps at 256 (D7). -/
theorem test_add :
    shows (step (start 0 [0x05] [0x02, 0x00, 0x00, 0x0A])) (fun t => (t.readReg .w8 0, t.ipo)) =
      some (0x0F, 4) ∧
    shows (step (start 0 [0xFF] [0x02, 0x00, 0x00, 0x01])) (·.readReg .w8 0) = some 0x00 := by
  repeat' constructor

theorem test_add_source_is_destination :
    shows (exec (.addR (.form (.reg 0 0))) (start 0 [0x81] [])) (·.readReg .w8 0) = some 0x02 := rfl

theorem test_sub_borrows :
    shows (exec (.sub (.form (.imm 0 1))) (start 0 [] [])) (·.readReg .w8 0) = some 0xFF := rfl

/-- A zero divisor enters the handler (R405): B is zero, the handler is at 0x080200. -/
theorem test_div_by_zero :
    shows (exec (.div (.form ⟨.w8, 0, 1⟩)) { start 0 [0x07] [] with hmem := [(65535, 0x00080200)] })
      (fun t => (t.ipo, t.running)) = some (0x080200, true) := rfl

theorem test_sdiv_by_zero :
    shows (exec (.sdiv (.form ⟨.w16, 0, 2⟩)) { start 0 [0x07] [] with hmem := [(65535, 0x00080200)] })
      (·.ipo) = some 0x080200 := rfl

/-! V8: control transfer. -/

theorem test_nop : shows (step (start 0 [] [0x00, 0x00])) (fun t => (t.ipo, t.flags)) = some (2, 0) := rfl

theorem test_jp :
    shows (step (start 0x080000 [] [0x17, 0x00, 0x08, 0x01, 0x00])) (·.ipo) = some 0x080100 := rfl

theorem test_jr :
    shows (step (start 0x001000 [] [0x18, 0x00, 0x00, 0x00, 0x20])) (·.ipo) = some 0x001020 ∧
    shows (step (start 0x000004 [] [0x18, 0x00, 0xFF, 0xFF, 0xF0])) (·.ipo) = some 0xFFFFF4 := by
  repeat' constructor

theorem test_jp_cond :
    shows (step { start 0x080000 [] [0x17, 0x28, 0x08, 0x01, 0x00] with flags := 1 }) (·.ipo) =
      some 0x080100 ∧
    shows (step (start 0x080000 [] [0x17, 0x28, 0x08, 0x01, 0x00])) (·.ipo) = some 0x080005 := by
  repeat' constructor

theorem test_jr_cond :
    shows (step (start 0x001000 [] [0x18, 0x20, 0xFF, 0xFF, 0xF0])) (·.ipo) = some 0x000FF0 := rfl

theorem test_condition_16 :
    step (start 0x080000 [] [0x17, 0x30, 0x08, 0x01, 0x00]) = .fault .badConditionIndex := rfl

theorem test_call :
    shows (step (start 0x080000 [] [0x15, 0x00, 0x08, 0x01, 0x00]))
      (fun t => (t.csRead 0, t.spc, t.ipo)) = some (0x080005, 1, 0x080100) := rfl

theorem test_callr :
    shows (step { start 0x001000 [] [0x16, 0x00, 0x00, 0x00, 0x20] with spc := 3 })
      (fun t => (t.csRead 3, t.spc, t.ipo)) = some (0x001005, 4, 0x001020) := rfl

theorem test_call_full : step { start 0 [] [0x15] with spc := 1048576 } = .fault .callStackOverflow := rfl

theorem test_ret :
    shows (step { start 0x10 [] [0xFF] with spc := 2, csram := [(1, 0x080005)] })
      (fun t => (t.spc, t.ipo)) = some (1, 0x080005) ∧
    shows (step (start 0x10 [] [0xFF])) (fun t => (t.running, t.ipo, t.flags)) = some (false, 0x12, 0) := by
  repeat' constructor

theorem test_retif :
    shows (exec (.retif (.form 0)) { start 0x10 [] [] with spc := 1, csram := [(0, 0x20)] })
      (fun t => (t.spc, t.ipo)) = some (0, 0x20) ∧
    shows (exec (.retif (.form 8)) { start 0x10 [] [] with spc := 1, csram := [(0, 0x20)] })
      (fun t => (t.spc, t.ipo)) = some (1, 0x10) := by
  repeat' constructor

/-! V9: the register stack, and the examples of R283 to R290. -/

theorem test_push24 :
    shows (exec (.push24 (.form 0)) { start 0 [0x34, 0x56, 0x78] [] with spr := 1 })
      (fun t => (t.rsram, t.spr)) = some ([(1, 0x34), (2, 0x56), (3, 0x78)], 4) := rfl

theorem test_push16_and_32 :
    shows (exec (.push16 (.form 0)) (start 0 [0x12, 0x34] [])) (fun t => (t.rsram, t.spr)) =
      some ([(0, 0x12), (1, 0x34)], 2) ∧
    shows (exec (.push32 (.form (.gen 0))) (start 0 [0x12, 0x34, 0x56, 0x78] []))
      (fun t => (t.rsram, t.spr)) = some ([(0, 0x12), (1, 0x34), (2, 0x56), (3, 0x78)], 4) := by
  repeat' constructor

theorem test_push_limits :
    shows (exec (.push (.form 0)) { start 0 [0x12] [] with spr := 4194302 }) (·.spr) = some 4194303 ∧
    shows (exec (.push (.form 0)) { start 0 [0x12] [] with spr := 4194303, hmem := [(65535, 0x80200)] })
      (fun t => (t.spr, t.rsram, t.ipo)) = some (4194303, [], 0x080200) := by
  repeat' constructor

/-- RSRAM holds 12 34 56 78. -/
def stacked (spr : BitVec 24) : State :=
  { start 0 [0xAA] [] with rsram := cells 0 [0x12, 0x34, 0x56, 0x78], spr := spr }

theorem test_pop16 :
    shows (exec (.pop16 (.form 0)) (stacked 4)) (fun t => (t.readReg .w16 0, t.spr)) = some (0x5678, 2) ∧
    shows (exec (.pop16 (.form 0)) (stacked 2)) (fun t => (t.readReg .w16 0, t.spr)) = some (0x1234, 0) := by
  repeat' constructor

theorem test_pop24_and_32 :
    shows (exec (.pop24 (.form 0)) (stacked 4)) (fun t => (t.readReg .w24 0, t.spr)) =
      some (0x345678, 1) ∧
    shows (exec (.pop32 (.form (.gen 0))) (stacked 4)) (fun t => (t.readReg .w32 0, t.spr)) =
      some (0x12345678, 0) := by
  repeat' constructor

theorem test_pop_limits :
    shows (exec (.pop (.form 0)) (stacked 1)) (fun t => (t.readReg .w8 0, t.spr)) = some (0x12, 0) ∧
    shows (exec (.pop (.form 0)) { stacked 0 with hmem := [(65535, 0x80200)] })
      (fun t => (t.spr, t.ipo)) = some (0, 0x080200) := by
  repeat' constructor

theorem test_bad_handler :
    exec (.pop (.form 0)) { stacked 0 with hmem := [(65535, 0x01000000)] } = .fault .badHandlerAddress :=
  rfl

theorem test_setvar_installs_handler :
    shows (step (start 0 [] [0xBE, 0x00, 0x00, 0x00, 0xFF, 0xFF, 0x00, 0x08, 0x02, 0x00]))
      (fun t => (t.hmemRead 65535, t.ipo)) = some (0x00080200, 10) := rfl

theorem test_getvar :
    shows (exec (.getvar (.form ⟨24, .imm 65534⟩)) { start 0 [] [] with hmem := [(65534, 0x01020304)] })
      (fun t => (t.readReg .w16 24, t.readReg .w16 0)) = some (0x0102, 0x0304) := rfl

theorem test_hmem_index :
    exec (.setvar (.form ⟨.imm 65536, .imm 0⟩)) State.reset = .refused .hmemIndexAboveRange := rfl

/-! V3, V4, V10: the top of memory, the fetches, and the stops. -/

theorem test_fetch :
    ((start 0x001002 [] [0x00, 0x00, 0x20]).fetchSigned .w24).toOption.map
      (fun x => (x.1, x.2.ipo)) = some (32, 0x001005) ∧
    ((start 0 [] [0xFF, 0xFF, 0xF0]).fetchSigned .w24).toOption.map (·.1) = some (-16) := by
  repeat' constructor

theorem test_fetch_at_top :
    ((start 0xFFFFFF [] [0x7F]).fetch .w8).toOption.map (fun x => (x.1, x.2.ipo)) = some (0x7F, 0) ∧
    ((start 0xFFFFFE [] []).fetch .w24).toOption.map (·.1) = none := by
  repeat' constructor

/-- P5 (a): four one-byte fetches pass from 0xFFFFFF to 0; (b) a three-byte operand may not. -/
theorem test_step_at_top :
    shows (step { start 0xFFFFFC [] [] with ram := [(0xFFFFFC, 0x01), (0xFFFFFF, 0x05)] })
      (fun t => (t.readReg .w8 0, t.ipo)) = some (0x05, 0) ∧
    step { start 0xFFFFFC [] [] with ram := [(0xFFFFFC, 0x01), (0xFFFFFD, 0x02)] } =
      .fault .accessCrossesTop := by
  repeat' constructor

theorem test_stops :
    step (start 0 [] [0x19]) = .fault (.unassignedOpcode 0x19) ∧
    step (start 0 [] [0x01, 0xF4]) = .fault (.undefinedSubopcode 0xF4) ∧
    step (start 0 [] [0x60]) = .refused (.unspecifiedInstruction "POW") ∧
    step { State.reset with running := false } = .fault .stopped := by
  repeat' constructor

/-- The word that the host places is the one that the next step runs. -/
theorem test_with_fetch_word :
    shows (step (State.reset.withFetchWord 32 0x05000001)) (fun t => (t.readReg .w8 0, t.ipo)) =
      some (5, 4) := rfl

/-- `State.reset` is the launch of no block. -/
theorem test_launch_nothing : State.reset.launch [] = .next State.reset := rfl

/-- P2: two blocks, the run address 0x080000; the first step after the launch is `LD A, 0x08`. -/
theorem test_launch_p2 :
    shows (State.launch
        { start 0 [0xAA] [] with
          spr := 9, spc := 9, running := false, params := { launchParams with runAddress := 0x080000 } }
        [⟨0x080000, [0x01, 0x00, 0x00, 0x08]⟩, ⟨0x080100, [0x11, 0x22, 0x33, 0x44]⟩])
      (fun t => (t.ipo, t.spr, t.spc, t.readReg .w8 0, Memory.read t.ram 0x080103,
        shows (step t) fun u => (u.readReg .w8 0, u.ipo))) =
      some (0x080000, 0, 0, 0xAA, 0x44, some (0x08, 0x080004)) := rfl

/-- P5 (b): a block that ends beyond 0xFFFFFF, one that begins there, and blocks that overlap (D28). -/
theorem test_launch_refuses :
    State.reset.launch [⟨0xFFFFFC, [1, 2, 0, 0, 0, 0x10]⟩] = .refused .badLoadImage ∧
    State.reset.launch [⟨0x1000000, []⟩] = .refused .badLoadImage ∧
    State.reset.launch [⟨0x10, [1, 2]⟩, ⟨0x11, [3]⟩] = .refused .badLoadImage ∧
    loadable [⟨0xFFFFFC, [1, 2, 0, 0]⟩, ⟨0, [1]⟩, ⟨1, [2]⟩] = true := by
  repeat' constructor

/-- `#RUN`, or else the first `#ORG`, or else 0 (R440). -/
theorem test_run_address :
    runAddressOf (some 0x20) [0x10] = 0x20 ∧ runAddressOf none [0x10, 0x30] = 0x10 ∧
    runAddressOf none [] = 0 := by decide

/-- A store into the instruction at IPO is fetched (R87). -/
theorem test_store_into_code :
    shows (exec (.ldAbsR 0 0x20) (start 0x20 [0x17] [])) (fun t => t.instrByte 0) = some 0x17 := rfl

/-- Writing the value that an unlisted cell reads as unlists the cell. -/
theorem test_memory_canonical :
    Memory.write ([(1, 5), (3, 7)] : Memory 8) 3 0 = [(1, 5)] ∧
    Memory.write ([(1, 5), (3, 7)] : Memory 8) 2 9 = [(1, 5), (2, 9), (3, 7)] ∧
    Memory.wf 4 ([(1, 5), (3, 7)] : Memory 8) = true ∧ Memory.wf 4 ([(3, 7), (1, 5)] : Memory 8) = false ∧
    Memory.wf 4 ([(1, 0)] : Memory 8) = false ∧ Memory.wf 3 ([(3, 7)] : Memory 8) = false := by decide

/-! ## Witnesses: a state and operands that meet the hypotheses of each statement -/

/-- A small state for the witnesses: registers A = 08, B = 01, C = 00, D = 02 and IPO at 0x10. -/
def wit : State := start 0x10 [0x08, 0x01, 0x00, 0x02] []

/-- The launch parameters without the opt-in, and those of a model that runs the open forms. -/
def strict : Params := { launchParams with optIn := false }

def opened : Params := { launchParams with runOpen := true }

/-- A state in a model where `OFFSET_REG_SIGNED` is not supplied, A = 80. -/
def unsignedOffset : State :=
  { start 0 [0x80] [] with params := { launchParams with offsetSigned := none } }

theorem witness_DecodeReadsBackEncode :
    (Instr.ldRAbsImm 25 0xFFFFFF 0).wf launchParams = true ∧ (Instr.jrCond 15 0).wf launchParams = true ∧
    (Instr.ldMem (.form (.reg .w16 (.ind 25) 0))).wf listing = true ∧
    (Instr.imply16 1 0).wf listing = true ∧ (Instr.retif (.form 15)).wf launchParams = true ∧
    (Instr.push (.form 25)).wf { launchParams with subops := [⟨0x1C, .absent⟩] } = true := by decide

theorem witness_SampleWordsDecode : launchParams.jrNnn = some 0 := rfl

theorem witness_UnassignedOpcodesFault :
    (start 0 [] [0x19]).running = true ∧ unassigned ((start 0 [] [0x19]).instrByte 0).toNat = true ∧
    unassigned ((start 0 [] [0xFB]).instrByte 0).toNat = true ∧
    unassigned ((start 0 [] [0x18]).instrByte 0).toNat = false ∧
    unassigned ((start 0 [] [0xFC]).instrByte 0).toNat = false := by
  repeat' constructor

/-- The offset register byte of `LD B, (0x080100, Z)`, the register bytes of the two forms with a parameter,
of ADD with a float register, of SETVAR. -/
theorem witness_RegisterByteHighBitsIgnored :
    decodeAt launchParams (fun k => [0x01, 0x04, 0x01, 0x08, 0x01, 0x00, 0x19].getD k 0) =
      .ok (.ldRAbsR8 1 0x080100 25) ∧
    6 ∈ regBytes launchParams (.ldRAbsR8 1 0x080100 25) ∧
    (0xF9 : Byte).setWidth 5 = (0x19 : Byte).setWidth 5 ∧ 3 ∈ regBytes launchParams (.ldRrrInd 0 1) ∧
    2 ∈ regBytes launchParams (.ldAbsR 0 1) ∧ 3 ∈ regBytes launchParams (.addR (.form (.fr 0 1))) ∧
    3 ∈ regBytes launchParams (.setvar (.form ⟨.reg 0, .reg 4⟩)) ∧
    2 ∈ regBytes launchParams (.setvar (.form ⟨.imm 65535, .reg 4⟩)) :=
  ⟨rfl, by decide, by decide, by decide, by decide, by decide, by decide⟩

/-- The operand of `LD A, (nnn)` at 0xFFFFFA lies in 0xFFFFFD to 0xFFFFFF. -/
theorem witness_StepRunsDecodedInstruction :
    (start 0xFFFFFA [] [0x01, 0x02]).running = true ∧
    decodeAt launchParams (start 0xFFFFFA [] [0x01, 0x02]).instrByte = .ok (.ldRAbs 0 0) ∧
    ∀ x ∈ (Instr.ldRAbs 0 0).fetches launchParams, (0xFFFFFA#24 + BitVec.ofNat 24 x.1).toNat + x.2.bytes ≤ 0x1000000 :=
  ⟨rfl, rfl, by decide⟩

/-- The operand of `LD A, (nnn)` at 0xFFFFFB would end one byte beyond 0xFFFFFF. -/
theorem witness_OperandFetchPastTopFaults :
    (start 0xFFFFFB [] [0x01, 0x02]).running = true ∧
    decodeAt launchParams (start 0xFFFFFB [] [0x01, 0x02]).instrByte = .ok (.ldRAbs 0 0) ∧
    (3, Width.w24) ∈ (Instr.ldRAbs 0 0).fetches launchParams ∧
    0x1000000 < (0xFFFFFB#24 + BitVec.ofNat 24 3).toNat + Width.w24.bytes :=
  ⟨rfl, rfl, by decide, by decide⟩

theorem witness_FetchReadsAndAdvances :
    (State.reset.ipo + BitVec.ofNat 24 0xFFFFFC).toNat + Width.w32.bytes ≤ 0x1000000 := by decide

theorem witness_CompositeIsRegistersInOrder : (25 : RegIx).toNat < 26 := by decide

theorem witness_RamWriteIsBigEndian : (0xFFFFFC : Addr).toNat + Width.w32.bytes ≤ 0x1000000 := by decide

theorem witness_AccessPastTopFaults :
    0x1000000 < (0xFFFFFD : Addr).toNat + Width.w32.bytes ∧
    0x1000000 < (0xFFFFFF : Addr).toNat + Width.w16.bytes := by decide

theorem witness_StoreIsSeenByNextFetch :
    ∃ t, exec (.ldAbsR 0 0x11) wit = .next t ∧ t.ipo + BitVec.ofNat 24 1 = 0x11 := ⟨_, rfl, rfl⟩

/-- Each of the four modes, its offset register with the top bit set and `OFFSET_REG_SIGNED` supplied,
and with it not supplied. -/
theorem witness_EffectiveAddressOfShortOffsets :
    offsetValue (some true) (0x80 : Byte) = some (-128) ∧
    offsetValue (some false) (0x8000 : BitVec 16) = some 32768 ∧
    offsetValue none (0x7F : Byte) = some 127 ∧ offsetValue none (0x80 : Byte) = none ∧
    offsetValue none (0x8000 : BitVec 16) = none ∧
    (start 0 [0x80, 0x00] []).readReg .w8 0 = 0x80 ∧
    (start 0 [0x80, 0x00] []).readReg .w16 0 = 0x8000 := by decide

theorem witness_LoadImmediateByte :
    (25 : RegIx) = (0x39 : Byte).setWidth 5 ∧ (25 : RegIx).toNat < 26 ∧
    (26 : RegIx) = (0x1A : Byte).setWidth 5 ∧ 26 ≤ (26 : RegIx).toNat := by decide

theorem witness_LoadRegisterByte :
    (25 : RegIx) = (0x19 : Byte).setWidth 5 ∧ (0 : RegIx) = (0xE0 : Byte).setWidth 5 ∧
    (25 : RegIx).toNat < 26 ∧ (0 : RegIx).toNat < 26 := by decide

theorem witness_LoadByteFromMemory :
    byteLoad? (.ldRIndR8 25 0 3) = some (25, .indR8 0 3) ∧ (25 : RegIx).toNat < 26 ∧
    (∀ q ∈ (MemOp.indR8 0 3).regs, q.toNat < 26) ∧ wit.ea (.indR8 0 3) = .ok 0x080102 ∧
    unsignedOffset.ea (.indR8 0 0) = .error .offsetSignUnknown :=
  ⟨rfl, by decide, by decide, rfl, rfl⟩

theorem witness_LoadWideFromMemory :
    launchParams.wf = true ∧ launchParams.subopRrrInd = some 36 ∧
    (25 : RegIx).toNat < 26 ∧ (∀ q ∈ (MemOp.abs 0xFFFFFD).regs, q.toNat < 26) ∧
    wit.ea (.abs 0xFFFFFD) = .ok 0xFFFFFD ∧ (0xFFFFFD : Addr).toNat + Width.w24.bytes ≤ 0x1000000 ∧
    wit.ea (.ind 0) = .ok 0x080100 ∧ (0x080100 : Addr).toNat + Width.w24.bytes ≤ 0x1000000 ∧
    0x1000000 < (0xFFFFFD : Addr).toNat + Width.w32.bytes ∧
    unsignedOffset.ea (.absR8 0 0) = .error .offsetSignUnknown :=
  ⟨by decide, rfl, by decide, by decide, rfl, by decide, rfl, by decide, by decide, rfl⟩

theorem witness_LoadWideImmediateOrRegister : (25 : RegIx).toNat < 26 ∧ (0 : RegIx).toNat < 26 := by decide

theorem witness_LoadFloat :
    (15 : FRegIx).toNat < 16 ∧ (0 : FRegIx).toNat < 16 ∧
    (∀ q ∈ (MemOp.abs 0xFFFFFC).regs, q.toNat < 26) ∧ wit.ea (.abs 0xFFFFFC) = .ok 0xFFFFFC ∧
    (0xFFFFFC : Addr).toNat + 4 ≤ 0x1000000 ∧ wit.ea (.abs 0xFFFFFD) = .ok 0xFFFFFD ∧
    0x1000000 < (0xFFFFFD : Addr).toNat + 4 ∧ unsignedOffset.ea (.absR8 0 0) = .error .offsetSignUnknown :=
  ⟨by decide, by decide, by decide, rfl, by decide, rfl, by decide, rfl⟩

theorem witness_LoadByteFromFloatWritesOnlyDestination :
    (25 : RegIx).toNat < 26 ∧ (15 : FRegIx).toNat < 16 ∧ opened.runOpen = true ∧
    launchParams.runOpen = false := by decide

theorem witness_StoreRegister :
    launchParams.wf = true ∧ launchParams.subopAbsR = some 58 ∧
    (25 : RegIx).toNat < 26 ∧ (∀ q ∈ (MemOp.abs 0xFFFFFE).regs, q.toNat < 26) ∧
    wit.ea (.abs 0xFFFFFE) = .ok 0xFFFFFE ∧ (0xFFFFFE : Addr).toNat + Width.w16.bytes ≤ 0x1000000 ∧
    (0xFFFFFE : Addr).toNat + Width.w8.bytes ≤ 0x1000000 ∧
    0x1000000 < (0xFFFFFE : Addr).toNat + Width.w24.bytes ∧
    unsignedOffset.ea (.absR8 0 0) = .error .offsetSignUnknown :=
  ⟨by decide, rfl, by decide, by decide, rfl, by decide, by decide, by decide, rfl⟩

theorem witness_StoreFloat :
    (15 : FRegIx).toNat < 16 ∧ (∀ q ∈ (MemOp.ind 0).regs, q.toNat < 26) ∧
    wit.ea (.ind 0) = .ok 0x080100 ∧ (0x080100 : Addr).toNat + 4 ≤ 0x1000000 ∧
    wit.ea (.abs 0xFFFFFD) = .ok 0xFFFFFD ∧ 0x1000000 < (0xFFFFFD : Addr).toNat + 4 ∧
    unsignedOffset.ea (.absR8 0 0) = .error .offsetSignUnknown :=
  ⟨by decide, by decide, rfl, by decide, rfl, by decide, rfl⟩

theorem witness_AddImmediate : (25 : RegIx) = (0xF9 : Byte).setWidth 5 ∧ (25 : RegIx).toNat < 26 := by decide

/-- A sub-opcode of each kind, a memory operand with its address and without, and the float form. -/
theorem witness_InferredAddAndSubtract :
    (11 : Byte).toNat < 12 ∧ decode launchParams [0x01, 11, 25, 0, 3] = .ok (.ldRIndR24 25 0 3) ∧
    byteLoad? (.ldRIndR24 25 0 3) = some (25, .indR24 0 3) ∧
    (∀ q ∈ arithRegs (.mem 25 (.ind 0)), q.toNat < 26) ∧
    wit.arithSrc (.mem 25 (.ind 0)) = some (.ok 0) ∧ wit.arithSrc (.reg 0 1) = some (.ok 1) ∧
    wit.params.optIn = true ∧ unsignedOffset.params.optIn = true ∧
    unsignedOffset.arithSrc (.mem 0 (.absR8 0 0)) = some (.error .offsetSignUnknown) ∧
    { wit with params := strict }.params.optIn = false ∧ wit.arithSrc (.fr 0 0) = none :=
  ⟨by decide, rfl, rfl, by decide, rfl, rfl, rfl, rfl, rfl, rfl, rfl⟩

/-- C is zero; the handler is at 0xFFFFFF. -/
theorem witness_DivideByZeroEntersHandler :
    (0 : RegIx).toNat < 26 ∧ (2 : RegIx).toNat < 26 ∧
    State.readReg { wit with hmem := [(65535, 0xFFFFFF)] } .w8 2 = 0 ∧
    (State.hmemRead { wit with hmem := [(65535, 0xFFFFFF)] } 65535).toNat ≤ 0xFFFFFF := by decide

theorem witness_DivideWritesOnlyDestination :
    (25 : RegIx).toNat < 26 ∧ (1 : RegIx).toNat < 26 ∧ wit.readReg .w8 1 ≠ 0 ∧
    wit.params.runOpen = false ∧ { wit with params := opened }.params.runOpen = true := by decide

theorem witness_NopChangesNothing :
    wit.params.subopPresent? 0x00 ≠ none ∧
    { wit with params := { launchParams with subops := [] } }.params.subopPresent? 0x00 = none := by decide

/-- The greatest condition with the launch variant 1, and the variant 0. -/
theorem witness_JumpsSetIpo :
    (1 : BitVec 3) = (0x3F : Byte).extractLsb' 5 3 ∧ launchParams.jpNnn ≠ some 1 ∧
    launchParams.jpCond = some 1 ∧ launchParams.jrNnn = some ((0x1F : Byte).extractLsb' 5 3) ∧
    wit.cond 0 = .ok true ∧ wit.cond 8 = .ok false ∧ wit.cond 15 = .ok false :=
  ⟨by decide, by decide, rfl, by decide, rfl, rfl, rfl⟩

/-- The launch variants; one entry is free; each of the four forms, with a target below the instruction. -/
theorem witness_CallsPushReturnAddress :
    (1 : BitVec 3) = (0x3F : Byte).extractLsb' 5 3 ∧ launchParams.callNnn ≠ some 1 ∧
    launchParams.callCond = some 1 ∧ launchParams.callrNnn = some ((0x1F : Byte).extractLsb' 5 3) ∧
    State.cond { wit with spc := 1048575 } 7 = .ok true ∧
    { wit with spc := 1048575 }.spc.toNat < 1048576 ∧
    ((0x1B : Addr).toNat : Int) = relative wit.ipo 0x10 ∧
    ((0xFFFFFB : Addr).toNat : Int) = relative wit.ipo 0xFFFFF0 :=
  ⟨by decide, by decide, rfl, by decide, rfl, by decide, by decide, by decide⟩

theorem witness_UntakenCallsAndReturnsFallThrough : wit.cond 8 = .ok false := rfl

theorem witness_CallWithFullStackFaults :
    1048576 ≤ { wit with spc := 1048576 }.spc.toNat ∧
    State.cond { wit with spc := 1048576 } 0 = .ok true := ⟨by decide, rfl⟩

theorem witness_RetPopTakesTopEntry :
    wit.spc.toNat = 0 ∧ { wit with spc := 1 }.spc.toNat ≠ 0 := by decide

theorem witness_ReturnsPopCallStack :
    { wit with spc := 1 }.spc.toNat ≠ 0 ∧ wit.params.subopPresent? 0xFF ≠ none ∧
    State.cond { wit with spc := 1 } 7 = .ok true := ⟨by decide, by decide, rfl⟩

theorem witness_ReturnWithEmptyStackStops :
    wit.spc.toNat = 0 ∧ wit.params.subopPresent? 0xFF ≠ none ∧ wit.cond 0 = .ok true := ⟨rfl, by decide, rfl⟩

theorem witness_ReturnOfUnknownLength :
    { wit with params := { launchParams with subops := [] } }.params.subopPresent? 0xFF = none ∧
    wit.spc.toNat = 0 ∧ { wit with spc := 1 }.spc.toNat ≠ 0 := by decide

theorem witness_ReturnUndoesCall :
    wit.params.subopPresent? 0xFF ≠ none ∧ (∃ t, exec (.callNnn 0x080100) wit = .next t) ∧
    ∃ t, exec (.callrNnn 0xFFFFF0) wit = .next t := ⟨by decide, ⟨_, rfl⟩, _, rfl⟩

theorem witness_PushStoresOperand :
    (25 : RegIx).toNat < 26 ∧ { wit with spr := 4194302 }.spr.toNat + Width.w8.bytes < 4194304 ∧
    { wit with spr := 4194299 }.spr.toNat + Width.w32.bytes < 4194304 := by decide

theorem witness_PushOverflowEntersHandler :
    (25 : RegIx).toNat < 26 ∧ (15 : FRegIx).toNat < 16 ∧
    4194304 ≤ { wit with spr := 4194303 }.spr.toNat + Width.w8.bytes ∧
    4194304 ≤ { wit with spr := 4194300 }.spr.toNat + Width.w32.bytes ∧
    (wit.hmemRead 65535).toNat ≤ 0xFFFFFF := by decide

theorem witness_PopLoadsOperand :
    (25 : RegIx).toNat < 26 ∧ Width.w8.bytes ≤ (stacked 1).spr.toNat ∧
    Width.w32.bytes ≤ (stacked 4).spr.toNat := by decide

theorem witness_PopUnderflowEntersHandler :
    (25 : RegIx).toNat < 26 ∧ (15 : FRegIx).toNat < 16 ∧ (stacked 0).spr.toNat < Width.w8.bytes ∧
    (stacked 3).spr.toNat < Width.w32.bytes ∧ ((stacked 3).hmemRead 65535).toNat ≤ 0xFFFFFF := by decide

theorem witness_PushAndPopFloat :
    (15 : FRegIx).toNat < 16 ∧ { wit with spr := 4194299 }.spr.toNat + 4 < 4194304 ∧
    4 ≤ (stacked 4).spr.toNat := by decide

theorem witness_PopUndoesPush :
    (25 : RegIx).toNat < 26 ∧ (0 : RegIx).toNat < 26 ∧
    { wit with spr := 4194300 }.spr.toNat + Width.w24.bytes < 4194304 ∧
    ∃ t, exec (pushOf .w24 25) { wit with spr := 4194300 } = .next t :=
  ⟨by decide, by decide, by decide, _, rfl⟩

/-- The two named entries, and entry 0 in a model that runs open forms, by an immediate and by a
register. -/
theorem witness_SetvarWritesEntry :
    (∀ q ∈ (Src32.imm 65535).regs ++ (Src32.reg 25).regs, q.toNat < 26) ∧
    (wit.src32 (.imm 65535)).toNat = 65535 ∧ 65534 ≤ 65535 ∧
    (State.src32 { wit with params := opened } (.reg 10)).toNat = 0 ∧
    { wit with params := opened }.params.runOpen = true := by decide

theorem witness_GetvarReadsEntry :
    (∀ q ∈ (25 : RegIx) :: (Src32.reg 10).regs, q.toNat < 26) ∧
    (State.src32 { wit with params := opened } (.reg 10)).toNat = 0 ∧
    { wit with params := opened }.params.runOpen = true ∧ (wit.src32 (.imm 65534)).toNat = 65534 := by decide

theorem witness_HmemIndexRefused :
    (∀ q ∈ (Src32.imm 65536).regs ++ (Src32.imm 0).regs, q.toNat < 26) ∧
    (∀ q ∈ (25 : RegIx) :: (Src32.imm 65536).regs, q.toNat < 26) ∧
    65536 ≤ (wit.src32 (.imm 65536)).toNat ∧
    (wit.src32 (.imm 65533)).toNat < 65534 ∧ wit.params.runOpen = false := by decide

theorem witness_ErrorEntry :
    (State.hmemRead { wit with hmem := [(65535, 0xFFFFFF)] } 65535).toNat ≤ 0xFFFFFF ∧
    0xFFFFFF < (State.hmemRead { wit with hmem := [(65535, 0x1000000)] } 65535).toNat := by decide

theorem witness_BadHandlerAddressFaults :
    (0 : RegIx).toNat < 26 ∧ (2 : RegIx).toNat < 26 ∧ (15 : FRegIx).toNat < 16 ∧
    0xFFFFFF < (State.hmemRead { wit with hmem := [(65535, 0x1000000)], spr := 4194303 } 65535).toNat ∧
    4194304 ≤ { wit with hmem := [(65535, 0x1000000)], spr := 4194303 }.spr.toNat + Width.w8.bytes ∧
    wit.spr.toNat < Width.w8.bytes ∧ wit.spr.toNat < Width.w32.bytes ∧ wit.readReg .w8 2 = 0 := by decide

theorem witness_ConditionIndex :
    condIx? (.jpCond 7 0) = some 7 ∧ condIx? (.retif (.form 8)) = some 8 ∧
    condIx? (.callCond 15 0) = some 15 ∧ condIx? (.jrCond 16 0) = some 16 ∧
    (7 : CondIx).toNat < 8 ∧ 8 ≤ (8 : CondIx).toNat ∧ (15 : CondIx).toNat < 16 ∧
    16 ≤ (16 : CondIx).toNat := by decide

/-- An instruction with no premise of its own, an inferred form, and `LD r, fr`. -/
theorem witness_BadRegisterIndexFaults :
    26 ∈ regIxs (.ldRIndR8 0 1 26) ∧ 26 ∈ regIxs (.getvar (.form ⟨0, .reg 26⟩)) ∧
    31 ∈ regIxs (.div (.form ⟨.w8, 0, 31⟩)) ∧ 26 ≤ (26 : RegIx).toNat ∧ 26 ≤ (31 : RegIx).toNat ∧
    26 ∈ regIxs (.sub (.form (.imm 26 0))) ∧ wit.params.optIn = true ∧
    26 ∈ regIxs (.ldRFr 26 0) ∧ { wit with params := opened }.params.runOpen = true := by decide

theorem witness_BadFloatRegisterIndexFaults :
    (∀ q ∈ regIxs (.push32 (.form (.fr 16))), q.toNat < 26) ∧ 16 ∈ fregIxs (.push32 (.form (.fr 16))) ∧
    (∀ q ∈ regIxs (.ldRFr 25 16), q.toNat < 26) ∧ 16 ∈ fregIxs (.ldRFr 25 16) ∧
    16 ≤ (16 : FRegIx).toNat ∧ { wit with params := opened }.params.runOpen = true := by decide

theorem witness_UndefinedSubopcodesFault :
    244 ≤ (244 : Byte).toNat ∧ 244 ≤ (255 : Byte).toNat ∧ launchParams.wf = true := by decide

/-- A block that ends at 0xFFFFFF beside one at 0, and two that share a byte. -/
theorem witness_LaunchValues :
    (∀ b ∈ ([⟨0xFFFFFE, [1, 2]⟩, ⟨0, [3]⟩] : List Block),
      b.origin < 0x1000000 ∧ b.origin + b.bytes.length ≤ 0x1000000) ∧
    (([⟨0xFFFFFE, [1, 2]⟩, ⟨0, [3]⟩] : List Block).Pairwise fun b c =>
      ∀ i j, i < b.bytes.length → j < c.bytes.length → b.origin + i ≠ c.origin + j) ∧
    ¬ ([⟨0x10, [1, 2]⟩, ⟨0x11, [3]⟩] : List Block).Pairwise fun b c =>
      ∀ i j, i < b.bytes.length → j < c.bytes.length → b.origin + i ≠ c.origin + j := by
  refine ⟨by decide, ?_, fun h => ?_⟩
  · simp only [List.pairwise_cons, List.mem_singleton, List.length_cons, List.length_nil]
    refine ⟨fun c e i j hi hj => ?_, by simp⟩
    subst e
    have hj' : j < 1 := hj
    show 0xFFFFFE + i ≠ 0 + j
    omega
  · exact (List.pairwise_cons.1 h).1 _ (List.mem_singleton.2 rfl) 1 0 (by decide) (by decide) rfl

/-- A state that meets the invariant and whose step is next: SPR, SPC at their greatest values. -/
theorem witness_StepKeepsInvariant :
    { start 0x10 [0x05] [0x17] with spr := 4194303, spc := 1048576 }.Inv ∧
    ∃ t, step { start 0x10 [0x05] [0x17] with spr := 4194303, spc := 1048576 } = .next t :=
  ⟨by unfold State.Inv; decide, _, rfl⟩

/-- One instruction of each kind that the clauses leave out, and a return with SPC not 0. -/
theorem witness_MemoriesChangeOnlyByTheirInstructions :
    (∃ t, exec (.ldRN 0 5) wit = .next t) ∧ (∃ t, exec (.ldAbsR 0 0xFFFFFF) wit = .next t) ∧
    (∃ t, exec (.push (.form 0)) wit = .next t) ∧ (∃ t, exec (.callNnn 0) wit = .next t) ∧
    (∃ t, exec .ret { wit with spc := 1 } = .next t) ∧
    usesRsram (.ldRN 0 5) = false ∧ isCall .ret = false ∧ isReturn (.callNnn 0) = false ∧
    writesHmem (.callNnn 0) = false ∧ writesRam (.push (.form 0)) = false :=
  ⟨⟨_, rfl⟩, ⟨_, rfl⟩, ⟨_, rfl⟩, ⟨_, rfl⟩, ⟨_, rfl⟩, rfl, rfl, rfl, rfl, rfl⟩

end Sys2Proof.Tests
end

/-! # The state (10_state.md)

The statements about the machine's state: what a next state of an instruction can be (`Effect`), and from it
the invariant of a step and the frame of the memories; then the registers, the index checks, the bits of a
register byte, the jumps, the loads of float registers, the HMEM entries, and the launch. -/

namespace Sys2Proof.Machine

/-! ## What the operands of an instruction need -/

theorem regOk_iff {q : RegIx} : regOk q = true ↔ q.toNat < 26 := decide_eq_true_iff

theorem fregOk_iff {f : FRegIx} : fregOk f = true ↔ f.toNat < 16 := decide_eq_true_iff

theorem all_regOk {is : List RegIx} (h : ∀ q ∈ is, q.toNat < 26) : is.all regOk = true :=
  List.all_eq_true.2 fun q hq => regOk_iff.2 (h q hq)

theorem not_all_regOk {is : List RegIx} {q : RegIx} (hq : q ∈ is) (h : 26 ≤ q.toNat) :
    is.all regOk = false :=
  List.all_eq_false.2 ⟨q, hq, fun e => Nat.not_lt.2 h (regOk_iff.1 e)⟩

theorem not_all_fregOk {fs : List FRegIx} {f : FRegIx} (hf : f ∈ fs) (h : 16 ≤ f.toNat) :
    fs.all fregOk = false :=
  List.all_eq_false.2 ⟨f, hf, fun e => Nat.not_lt.2 h (fregOk_iff.1 e)⟩

theorem State.withLoad_eq_next {s t : State} {w : Width} {m : MemOp} {k : BitVec w.bits → Result} :
    s.withLoad w m k = .next t ↔ ∃ a, s.ea m = .ok a ∧ ∃ v, s.memRead w a = .ok v ∧ k v = .next t := by
  simp only [State.withLoad, withOk_eq_next]

theorem State.memWrite_eq_ok {s t : State} {w : Width} {a : Addr} {v : BitVec w.bits} :
    s.memWrite w a v = .ok t ↔ a.toNat + w.bytes ≤ Config.addrWrap ∧
      t = { s with ram := Memory.writeSeq s.ram (a.toNat + ·) (byteOf w v) w.bytes } := by
  unfold State.memWrite; split <;> simp_all [eq_comm]

theorem withHmemIndex_eq_next {k : Word32} {s t : State} {run : Nat → Result}
    (h : withHmemIndex k s run = .next t) : k.toNat < Config.hmemEntries ∧ run k.toNat = .next t := by
  unfold withHmemIndex at h
  split at h
  · split at h
    · exact ⟨‹_›, h⟩
    · cases h
  · cases h

theorem onListed_eq_next {α : Type} {mnemonic : String} {f : Given α} {run : α → Result} {t : State}
    (h : onListed mnemonic f run = .next t) : ∃ x, f = .form x ∧ run x = .next t := by
  cases f with
  | form x => exact ⟨x, rfl, h⟩
  | unlisted _ => cases h

/-! ## What the next state of an instruction can be

Every next state that `exec` answers is one of the states below, and `exec_effect` says so once: the
instructions are grouped by the operation that ends them. The premises keep what the invariant and the frame
of the memories need: that a write lies within its memory, and that the instruction is one of those that R60
lets reach the memory. -/

/-- `Effect i s t`: `t` is a state that the operations of the model can leave behind when they run `i`
from `s`. -/
inductive Effect (i : Instr) (s : State) : State → Prop where
  /-- NOP (R260). -/
  | same : Effect i s s
  /-- A condition that does not hold (R261, R272). -/
  | flags : Effect i s s.drawFlags
  /-- A general register, an immediate, a load or a sum written to it. -/
  | reg (w : Width) (d : RegIx) (v : BitVec w.bits) : Effect i s (s.writeReg w d v).drawFlags
  /-- A general register of which the spec gives no value (R153, R178, R191). -/
  | freeReg (w : Width) (d : RegIx) : Effect i s (s.drawReg w d).drawFlags
  /-- A float register (R158). -/
  | freg (f : FRegIx) (v : Word32) (hf : fregOk f = true) : Effect i s (s.writeF f v).drawFlags
  /-- A store to RAM (R157). -/
  | ram {w : Width} {a : Addr} {v : BitVec w.bits} {u : State} (hi : writesRam i = true)
      (hu : s.memWrite w a v = .ok u) : Effect i s u.drawFlags
  /-- A jump taken (R264, R265). -/
  | jump (a : Addr) : Effect i s (s.jump a).drawFlags
  /-- A call taken (R262, R263). -/
  | call {ret : Addr} {u : State} (a : Addr) (hi : isCall i = true) (hu : s.callPush ret = .ok u) :
      Effect i s (u.jump a).drawFlags
  /-- A return taken (R271). -/
  | ret (hi : isReturn i = true) : Effect i s s.retPop
  /-- A RET of unknown length at SPC = 0 (R273, D26). -/
  | stopAnywhere (a : Addr) (hi : isReturn i = true) (hz : s.spc = 0) :
      Effect i s (s.stop.jump a).drawNext
  /-- A push that fits (R281). -/
  | push {w : Width} (v : BitVec w.bits) (hi : usesRsram i = true) (hf : s.rsOverflows w = false) :
      Effect i s (s.rsPushed w v).drawFlags
  /-- A pop of a general register (R282). -/
  | popReg {w : Width} (d : RegIx) (v : BitVec w.bits) (hi : usesRsram i = true)
      (hf : s.rsUnderflows w = false) : Effect i s ((s.rsDropped w).writeReg w d v).drawFlags
  /-- A pop of a float register (R286). -/
  | popF {w : Width} (f : FRegIx) (v : Word32) (hr : fregOk f = true) (hi : usesRsram i = true)
      (hf : s.rsUnderflows w = false) : Effect i s ((s.rsDropped w).writeF f v).drawFlags
  /-- Error entry (R404). -/
  | error {kind : ErrorKind} {u : State} (hi : writesHmem i = true) (hu : s.raiseError kind = .ok u) :
      Effect i s u
  /-- Error entry that leaves a general register free (D16). -/
  | errorReg {kind : ErrorKind} {u : State} (w : Width) (d : RegIx) (hi : writesHmem i = true)
      (hu : s.raiseError kind = .ok u) : Effect i s (u.drawReg w d)
  /-- Error entry that leaves a float register free (D16). -/
  | errorF {kind : ErrorKind} {u : State} (f : FRegIx) (hr : fregOk f = true) (hi : writesHmem i = true)
      (hu : s.raiseError kind = .ok u) : Effect i s (u.drawF f)
  /-- SETVAR (R329). -/
  | hmem (k : Nat) (v : Word32) (hi : writesHmem i = true) (hk : k < Config.hmemEntries) :
      Effect i s (s.hmemWrite k v).drawFlags

/-! ### The operations -/

section Operations

variable {i : Instr} {s t : State}

theorem loadImm_effect {w : Width} {d : RegIx} {v : BitVec w.bits} (h : loadImm w d v s = .next t) :
    Effect i s t := by
  obtain ⟨-, h⟩ := requireRegs_eq_next.1 h
  cases h
  exact .reg w d v

theorem moveTo_effect {w : Width} {d r : RegIx} (h : moveTo w d r s = .next t) : Effect i s t := by
  obtain ⟨-, h⟩ := requireRegs_eq_next.1 h
  cases h
  exact .reg w d _

theorem loadTo_effect {w : Width} {d : RegIx} {m : MemOp} (h : loadTo w d m s = .next t) :
    Effect i s t := by
  obtain ⟨-, h⟩ := requireRegs_eq_next.1 h
  obtain ⟨a, -, v, -, h⟩ := State.withLoad_eq_next.1 h
  cases h
  exact .reg w d v

theorem loadForm_effect {w : Width} {mnemonic : String} {f : Given (LdForm w)}
    (h : loadForm w mnemonic f s = .next t) : Effect i s t := by
  match f with
  | .form (.imm _ _) => exact loadImm_effect h
  | .form (.reg _ _) => exact moveTo_effect h
  | .form (.mem _ _) => exact loadTo_effect h
  | .unlisted _ => cases h

theorem storeTo_effect {w : Width} {m : MemOp} {v : BitVec w.bits} (hi : writesRam i = true)
    (h : s.storeTo w m v = .next t) : Effect i s t := by
  obtain ⟨a, -, h⟩ := withOk_eq_next.1 h
  obtain ⟨u, hu, h⟩ := withOk_eq_next.1 h
  cases h
  exact .ram hi hu

theorem storeReg_effect {w : Width} {m : MemOp} {r : RegIx} (hi : writesRam i = true)
    (h : storeReg w m r s = .next t) : Effect i s t :=
  storeTo_effect hi (requireRegs_eq_next.1 h).2

theorem execLdMem_effect {f : Given StForm} (hi : writesRam i = true) (h : execLdMem f s = .next t) :
    Effect i s t := by
  match f with
  | .form (.reg _ _ _) => exact storeReg_effect hi h
  | .form (.fr _ _) =>
    obtain ⟨-, h⟩ := requireRegs_eq_next.1 h
    exact storeTo_effect hi (requireFregs_eq_next.1 h).2
  | .unlisted _ => cases h

theorem execLdFr_effect {f : Given FrForm} (h : execLdFr f s = .next t) : Effect i s t := by
  match f with
  | .form (.fr d r) =>
    obtain ⟨hf, h⟩ := requireFregs_eq_next.1 h
    cases h
    exact .freg d _ (List.all_eq_true.1 hf d List.mem_cons_self)
  | .form (.mem d m) =>
    obtain ⟨-, h⟩ := requireRegs_eq_next.1 h
    obtain ⟨hf, h⟩ := requireFregs_eq_next.1 h
    obtain ⟨a, -, v, -, h⟩ := State.withLoad_eq_next.1 h
    cases h
    exact .freg d v (List.all_eq_true.1 hf d List.mem_cons_self)
  | .unlisted _ => cases h

theorem execLdRFr_effect {d : RegIx} {f : FRegIx} (h : execLdRFr d f s = .next t) : Effect i s t := by
  unfold execLdRFr at h
  split at h
  · obtain ⟨-, h⟩ := requireRegs_eq_next.1 h
    obtain ⟨-, h⟩ := requireFregs_eq_next.1 h
    cases h
    exact .freeReg .w8 d
  · cases h

theorem execAddRN_effect {d : RegIx} {n : Byte} (h : execAddRN d n s = .next t) : Effect i s t := by
  obtain ⟨-, h⟩ := requireRegs_eq_next.1 h
  cases h
  exact .reg .w8 d _

theorem arithForm_effect {mnemonic : String} {op : Byte → Byte → Byte} {x : ArithForm}
    (h : arithForm mnemonic op x s = .next t) : Effect i s t := by
  cases x with
  | imm d n =>
    obtain ⟨-, h⟩ := requireRegs_eq_next.1 h
    cases h
    exact .reg .w8 d _
  | reg d r =>
    obtain ⟨-, h⟩ := requireRegs_eq_next.1 h
    cases h
    exact .reg .w8 d _
  | mem d m =>
    obtain ⟨-, h⟩ := requireRegs_eq_next.1 h
    obtain ⟨a, -, v, -, h⟩ := State.withLoad_eq_next.1 h
    cases h
    exact .reg .w8 d _
  | fr d f => cases h

theorem inferredArith_effect {mnemonic : String} {op : Byte → Byte → Byte} {f : Given ArithForm}
    (h : inferredArith mnemonic op f s = .next t) : Effect i s t := by
  cases f with
  | form x =>
    simp only [inferredArith] at h
    split at h
    · exact arithForm_effect h
    · cases h
  | unlisted _ => cases h

theorem divide_effect {mnemonic : String} {f : Given DivForm} (hi : writesHmem i = true)
    (h : divide mnemonic f s = .next t) : Effect i s t := by
  cases f with
  | form x =>
    obtain ⟨-, h⟩ := requireRegs_eq_next.1 h
    split at h
    · obtain ⟨u, hu, h⟩ := withOk_eq_next.1 h
      cases h
      exact .errorReg x.w x.d hi hu
    · split at h
      · cases h
        exact .freeReg x.w x.d
      · cases h
  | unlisted _ => cases h

theorem jumpTo_effect {a : Addr} (h : jumpTo a s = .next t) : Effect i s t := by
  cases h
  exact .jump a

theorem callTo_effect {a : Addr} (hi : isCall i = true) (h : callTo a s = .next t) : Effect i s t := by
  obtain ⟨u, hu, h⟩ := withOk_eq_next.1 h
  cases h
  exact .call a hi hu

theorem onCond_effect {k : CondIx} {taken : State → Result} (h : onCond k taken s = .next t)
    (ht : taken s = .next t → Effect i s t) : Effect i s t := by
  obtain ⟨b, -, h⟩ := withOk_eq_next.1 h
  cases b with
  | true => exact ht h
  | false =>
    cases h
    exact .flags

theorem execRetif_effect {f : Given CondIx} (hi : isReturn i = true) (h : execRetif f s = .next t) :
    Effect i s t := by
  cases f with
  | form k =>
    refine onCond_effect (taken := fun t => .next t.retPop) h fun h => ?_
    cases h
    exact .ret hi
  | unlisted _ => cases h

theorem execRet_effect (hi : isReturn i = true) (h : execRet s = .next t) : Effect i s t := by
  unfold execRet at h
  split at h
  · cases h
    exact .ret hi
  · split at h
    · cases h
      exact .stopAnywhere _ hi ‹_›
    · cases h

theorem execNop_effect (h : execNop s = .next t) : Effect i s t := by
  unfold execNop at h
  split at h
  · cases h
    exact .same
  · cases h

/-- PUSH and POP can raise an error, which writes HMEM (R401). -/
theorem writesHmem_of_usesRsram (hi : usesRsram i = true) : writesHmem i = true := by
  unfold writesHmem
  split
  · rfl
  · rfl
  · rfl
  · exact hi

theorem rsPush_effect {w : Width} {v : BitVec w.bits} (hi : usesRsram i = true)
    (h : s.rsPush w v = .next t) : Effect i s t := by
  cases hf : s.rsOverflows w with
  | true =>
    rw [State.rsPush_overflow v hf] at h
    obtain ⟨u, hu, h⟩ := withOk_eq_next.1 h
    cases h
    exact .error (writesHmem_of_usesRsram hi) hu
  | false =>
    rw [State.rsPush_fits v hf] at h
    cases h
    exact .push v hi hf

theorem pushReg_effect {w : Width} {q : RegIx} (hi : usesRsram i = true) (h : pushReg w q s = .next t) :
    Effect i s t :=
  rsPush_effect hi (requireRegs_eq_next.1 h).2

theorem popReg_effect {w : Width} {q : RegIx} (hi : usesRsram i = true) (h : popReg w q s = .next t) :
    Effect i s t := by
  obtain ⟨-, h⟩ := requireRegs_eq_next.1 h
  cases hf : s.rsUnderflows w with
  | true =>
    rw [State.rsPop_underflow hf] at h
    obtain ⟨u, hu, h⟩ := withOk_eq_next.1 h
    cases h
    exact .errorReg w q (writesHmem_of_usesRsram hi) hu
  | false =>
    rw [State.rsPop_fits hf] at h
    cases h
    exact .popReg q _ hi hf

theorem popF_effect {f : FRegIx} (hi : usesRsram i = true)
    (h : requireFregs [f] (s.rsPop .w32 (fun v t => t.writeF f v) fun t => t.drawF f) = .next t) :
    Effect i s t := by
  obtain ⟨hr, h⟩ := requireFregs_eq_next.1 h
  replace hr := List.all_eq_true.1 hr f List.mem_cons_self
  cases hf : s.rsUnderflows .w32 with
  | true =>
    rw [State.rsPop_underflow hf] at h
    obtain ⟨u, hu, h⟩ := withOk_eq_next.1 h
    cases h
    exact .errorF f hr (writesHmem_of_usesRsram hi) hu
  | false =>
    rw [State.rsPop_fits hf] at h
    cases h
    exact .popF f _ hr hi hf

theorem execPush32_effect {f : Given Reg32} (hi : usesRsram i = true) (h : execPush32 f s = .next t) :
    Effect i s t := by
  match f with
  | .form (.gen _) => exact pushReg_effect hi h
  | .form (.fr _) => exact rsPush_effect hi (requireFregs_eq_next.1 h).2
  | .unlisted _ => cases h

theorem execPop32_effect {f : Given Reg32} (hi : usesRsram i = true) (h : execPop32 f s = .next t) :
    Effect i s t := by
  match f with
  | .form (.gen _) => exact popReg_effect hi h
  | .form (.fr _) => exact popF_effect hi h
  | .unlisted _ => cases h

theorem execSetvar_effect {f : Given SetForm} (hi : writesHmem i = true) (h : execSetvar f s = .next t) :
    Effect i s t := by
  cases f with
  | form x =>
    obtain ⟨-, h⟩ := requireRegs_eq_next.1 h
    obtain ⟨hk, h⟩ := withHmemIndex_eq_next h
    cases h
    exact .hmem _ _ hi hk
  | unlisted _ => cases h

theorem execGetvar_effect {f : Given GetForm} (h : execGetvar f s = .next t) : Effect i s t := by
  cases f with
  | form x =>
    obtain ⟨-, h⟩ := requireRegs_eq_next.1 h
    obtain ⟨-, h⟩ := withHmemIndex_eq_next h
    cases h
    exact .reg .w32 x.d _
  | unlisted _ => cases h

end Operations

/-! ### The instructions -/

/-- What the next state of an instruction can be. The instructions that are not named answer no next
state: each is refused or a fault. -/
theorem exec_effect {i : Instr} {s t : State} (h : exec i s = .next t) : Effect i s t := by
  cases i with
  | nop => exact execNop_effect h
  | ldRN => exact loadImm_effect h
  | ldRR => exact moveTo_effect h
  | ldRAbs | ldRAbsImm | ldRAbsR8 | ldRAbsR16 | ldRAbsR24 => exact loadTo_effect h
  | ldRInd | ldRIndImm | ldRIndR8 | ldRIndR16 | ldRIndR24 => exact loadTo_effect h
  | ldRFr => exact execLdRFr_effect h
  | ldRr | ldRrr | ldRrrr => exact loadForm_effect h
  | ldMem => exact execLdMem_effect rfl h
  | ldFr => exact execLdFr_effect h
  | ldRrrInd => exact loadTo_effect h
  | ldAbsR => exact storeReg_effect rfl h
  | addRN => exact execAddRN_effect h
  | addR | sub => exact inferredArith_effect h
  | div | sdiv => exact divide_effect rfl h
  | callNnn | callrNnn => exact callTo_effect rfl h
  | callCond | callrCond => exact onCond_effect h (callTo_effect rfl)
  | jpNnn | jrNnn => exact jumpTo_effect h
  | jpCond | jrCond => exact onCond_effect h jumpTo_effect
  | pop | pop16 | pop24 =>
    obtain ⟨_, rfl, h⟩ := onListed_eq_next h
    exact popReg_effect rfl h
  | pop32 => exact execPop32_effect rfl h
  | push | push16 | push24 =>
    obtain ⟨_, rfl, h⟩ := onListed_eq_next h
    exact pushReg_effect rfl h
  | push32 => exact execPush32_effect rfl h
  | setvar => exact execSetvar_effect rfl h
  | getvar => exact execGetvar_effect h
  | retif => exact execRetif_effect rfl h
  | ret => exact execRet_effect rfl h
  | _ => cases h

/-! ## The invariant and the frame of the memories -/

/-- What a step answers when it answers a next state (R91, R410). -/
theorem step_eq_next {s t : State} (h : step s = .next t) :
    ∃ i, decodeAt s.params s.instrByte = .ok i ∧ exec i (s.advance (i.length s.params)) = .next t := by
  unfold step at h
  split at h
  · split at h
    · cases h
    · split at h
      · exact ⟨_, ‹_›, h⟩
      · cases h
  · cases h

theorem Effect.inv {i : Instr} {s t : State} (h : Effect i s t) (hs : s.Inv) : t.Inv := by
  cases h with
  | same | flags | jump | stopAnywhere => exact hs
  | reg w d v => exact State.inv_writeReg w d v hs
  | freeReg w d => exact State.inv_drawReg w d hs
  | freg f v hf => exact State.inv_writeF v hf hs
  | ram _ hu => exact State.inv_drawFlags (State.inv_memWrite hu hs)
  | call a _ hu => exact State.inv_drawFlags (State.inv_jump a (State.inv_callPush hu hs))
  | ret => exact State.inv_retPop hs
  | push v _ hf => exact State.inv_rsPushed v hf hs
  | popReg d v _ hf => exact State.inv_writeReg _ d v (State.inv_rsDropped hf hs)
  | popF f v hr _ hf => exact State.inv_writeF v hr (State.inv_rsDropped hf hs)
  | error _ hu => exact State.inv_raiseError hu hs
  | errorReg w d _ hu => exact State.inv_drawReg w d (State.inv_raiseError hu hs)
  | errorF f hr _ hu => exact State.inv_drawF hr (State.inv_raiseError hu hs)
  | hmem k v _ hk => exact State.inv_hmemWrite v hk hs

/-- Settles O59: a step is an instruction that runs with IPO moved on, and each state that an instruction
can leave behind keeps the invariant. -/
theorem stepKeepsInvariant : Obligations.StepKeepsInvariant := by
  intro s t hs h
  obtain ⟨i, -, h⟩ := step_eq_next h
  exact (exec_effect h).inv (State.inv_advance _ hs)

/-- Settles O58: the memories are empty at reset, and the launch parameters are well formed. -/
theorem resetSatisfiesInvariant : Obligations.ResetSatisfiesInvariant := by
  obtain ⟨hregs, hfregs, hram, hrsram, hcsram, hhmem⟩ := reset_memories_wf
  exact ⟨hregs, hfregs, hram, hrsram, hcsram, hhmem, by decide, by decide, by decide⟩

/-- Settles O60: each state that an instruction can leave behind differs from the one before it in the
memories that the instruction is one of those to reach. -/
theorem memoriesChangeOnlyByTheirInstructions : Obligations.MemoriesChangeOnlyByTheirInstructions := by
  intro i s t h
  cases exec_effect h with
  | same | flags | reg | freeReg | freg | jump => simp
  | ram hi hu =>
    obtain ⟨-, rfl⟩ := State.memWrite_eq_ok.1 hu
    simp [hi]
  | call a hi hu =>
    obtain ⟨-, rfl⟩ := State.callPush_eq_ok.1 hu
    simp [hi]
  | ret hi =>
    by_cases hz : s.spc = 0
    · simp [State.retPop_zero hz, hi, hz]
    · simp [State.retPop_pos hz, hi]
  | stopAnywhere a hi hz => simp [hi, hz]
  | push _ hi | popReg _ _ hi | popF _ _ _ hi | hmem _ _ hi => simp [hi]
  | error hi hu | errorReg _ _ hi hu | errorF _ _ hi hu =>
    obtain ⟨-, rfl⟩ := State.raiseError_eq_ok.1 hu
    simp [hi]

/-! ## The step -/

/-- Settles O5: where no operand fetch passes 0xFFFFFF, `step` has only the branch that runs `i`. -/
theorem stepRunsDecodedInstruction : Obligations.StepRunsDecodedInstruction := by
  intro s i hr hd hf
  have hfetch : (i.fetches s.params).all s.canFetch = true :=
    List.all_eq_true.2 fun x hx => State.canFetch_iff.2 (hf x hx)
  simp only [step, hr, hd, hfetch, if_true]

/-! ## Registers -/

/-- The `k`-th register after register `i` is the `k`-th of the composite that begins with `i` (R22). -/
theorem regKey_regSucc (b : Byte) (i : RegIx) (k : Nat) : regKey b (regSucc i k) 0 = regKey b i k := by
  unfold regKey regSucc Config.nRegs
  rw [BitVec.toNat_ofNat]
  omega

theorem readReg_regSucc (s : State) (i : RegIx) (k : Nat) :
    s.readReg .w8 (regSucc i k) = Memory.read s.regs (regKey s.rbank i k) :=
  congrArg (Memory.read s.regs) (regKey_regSucc s.rbank i k)

/-- Settles O8: both sides read the same cells, by `regKey_regSucc`. -/
theorem compositeIsRegistersInOrder : Obligations.CompositeIsRegistersInOrder := by
  intro s i _
  simp only [readReg_regSucc]
  exact ⟨rfl, rfl, rfl⟩

/-- A byte of a value, by a shift (R61). -/
theorem byteOf_eq_shift (w : Width) (v : BitVec w.bits) (j : Nat) :
    byteOf w v j = (v >>> (8 * (w.bytes - 1 - j))).setWidth 8 := by
  refine BitVec.eq_of_getLsbD_eq fun i hi => ?_
  simp [byteOf, hi]

/-- Settles O9: the registers of one operand are different cells, so each keeps its byte of the value. -/
theorem registerWriteReadsBack : Obligations.RegisterWriteReadsBack := by
  intro s w i v
  refine ⟨State.readReg_writeReg s w i v, fun j hj => ?_, State.frame_writeReg s w i v⟩
  rw [← byteOf_eq_shift]
  exact Memory.read_writeSeq_on _ (regKey s.rbank i) _ _ j hj fun a ha b hb e => regKey_inj ha hb e

/-! ## Conditions -/

theorem cond_clear {s : State} {c : CondIx} (h : c.toNat < 8) :
    s.cond c = .ok (!s.flags.getLsbD c.toNat) := if_pos h

theorem cond_set {s : State} {c : CondIx} (h : 8 ≤ c.toNat) (h' : c.toNat < 16) :
    s.cond c = .ok (s.flags.getLsbD (c.toNat - 8)) := by
  unfold State.cond
  rw [if_neg (Nat.not_lt.2 h), if_pos h']
  rfl

theorem cond_bad {s : State} {c : CondIx} (h : 16 ≤ c.toNat) : s.cond c = .error .badConditionIndex := by
  unfold State.cond
  rw [if_neg (by omega), if_neg (by omega)]

theorem onCond_ok {s : State} {c : CondIx} {b : Bool} (taken : State → Result) (h : s.cond c = .ok b) :
    onCond c taken s = if b then taken s else .next s.drawFlags := by
  unfold onCond State.withCond
  rw [h]
  rfl

theorem onCond_bad {s : State} {c : CondIx} (taken : State → Result) (h : 16 ≤ c.toNat) :
    onCond c taken s = .fault .badConditionIndex := by
  unfold onCond State.withCond
  rw [cond_bad h]
  rfl

/-- A conditional instruction looks at its condition before anything else (R30). -/
theorem exec_of_condIx {i : Instr} {c : CondIx} (h : condIx? i = some c) :
    ∃ taken, ∀ s, exec i s = onCond c taken s := by
  unfold condIx? at h
  split at h
  · obtain rfl := Option.some.inj h
    exact ⟨_, fun _ => rfl⟩
  · obtain rfl := Option.some.inj h
    exact ⟨fun s => callTo (s.relTarget _) s, fun _ => rfl⟩
  · obtain rfl := Option.some.inj h
    exact ⟨_, fun _ => rfl⟩
  · obtain rfl := Option.some.inj h
    exact ⟨fun s => jumpTo (s.relTarget _) s, fun _ => rfl⟩
  · obtain rfl := Option.some.inj h
    exact ⟨_, fun _ => rfl⟩
  · cases h

/-- Settles O49: the fault is that of `cond(c)`, which every conditional instruction looks at first. -/
theorem conditionIndex : Obligations.ConditionIndex := by
  intro s i c hi
  refine ⟨cond_clear, cond_set, fun h => ?_⟩
  obtain ⟨taken, he⟩ := exec_of_condIx hi
  rw [he, onCond_bad taken h]

/-! ## Indices that name no register -/

/-- Every instruction checks its general register indices, and then its float register indices, before
anything else (R410, D3). The two premises are those under which the inferred forms of ADD and SUB and
`LD r, fr` have a meaning at all. -/
theorem exec_checks_indices {i : Instr} {s : State}
    (hin : (∃ x, i = .addR (.form x) ∨ i = .sub (.form x)) → s.params.optIn = true)
    (hop : (∃ d f, i = .ldRFr d f) → s.params.runOpen = true) :
    ∃ k, exec i s = requireRegs (regIxs i) (requireFregs (fregIxs i) k) := by
  cases i with
  | ldRFr d f => exact ⟨_, if_pos (hop ⟨d, f, rfl⟩)⟩
  | ldRr f | ldRrr f | ldRrrr f =>
    match f with
    | .form (.imm _ _) | .form (.reg _ _) | .form (.mem _ _) | .unlisted _ => exact ⟨_, rfl⟩
  | ldMem f =>
    match f with
    | .form (.reg _ _ _) | .form (.fr _ _) | .unlisted _ => exact ⟨_, rfl⟩
  | ldFr f =>
    match f with
    | .form (.fr _ _) | .form (.mem _ _) | .unlisted _ => exact ⟨_, rfl⟩
  | addR f =>
    match f with
    | .form (.imm _ _) | .form (.reg _ _) | .form (.mem _ _) | .form (.fr _ _) =>
      exact ⟨_, if_pos (hin ⟨_, .inl rfl⟩)⟩
    | .unlisted _ => exact ⟨_, rfl⟩
  | sub f =>
    match f with
    | .form (.imm _ _) | .form (.reg _ _) | .form (.mem _ _) | .form (.fr _ _) =>
      exact ⟨_, if_pos (hin ⟨_, .inr rfl⟩)⟩
    | .unlisted _ => exact ⟨_, rfl⟩
  | div f | sdiv f | pop f | pop16 f | pop24 f | push f | push16 f | push24 f | setvar f | getvar f =>
    match f with
    | .form _ | .unlisted _ => exact ⟨_, rfl⟩
  | pop32 f | push32 f =>
    match f with
    | .form (.gen _) | .form (.fr _) | .unlisted _ => exact ⟨_, rfl⟩
  | _ => exact ⟨_, rfl⟩

/-- Settles O50: the check of the general register indices comes first. -/
theorem badRegisterIndexFaults : Obligations.BadRegisterIndexFaults := by
  intro s i q hq hbad hin hop
  obtain ⟨k, he⟩ := exec_checks_indices hin hop
  rw [he, requireRegs_neg (not_all_regOk hq hbad)]

/-- An instruction that names a float register is no inferred form of ADD or SUB with a meaning. -/
theorem fregIxs_arith {i : Instr} (h : ∃ x, i = .addR (.form x) ∨ i = .sub (.form x)) :
    fregIxs i = [] := by
  obtain ⟨x, rfl | rfl⟩ := h <;> rfl

/-- Settles O51: the check of the float register indices comes right after that of the others. -/
theorem badFloatRegisterIndexFaults : Obligations.BadFloatRegisterIndexFaults := by
  intro s i f hregs hf hbad hop
  have hin : (∃ x, i = .addR (.form x) ∨ i = .sub (.form x)) → s.params.optIn = true := fun h => by
    rw [fregIxs_arith h] at hf
    cases hf
  obtain ⟨k, he⟩ := exec_checks_indices hin hop
  rw [he, requireRegs_pos (all_regOk hregs), requireFregs_neg (not_all_fregOk hf hbad)]

/-! ## Loads from memory -/

theorem State.frame_then_drawFlags {s t : State} {c : List Loc} (h : s.frame t c) :
    s.frame t.drawFlags (.flags :: c) :=
  State.frame_mono (State.frame_trans h t.frame_drawFlags) (by simp; tauto)

/-- The one fault of an offset register (R84). -/
theorem extOffset_error {n : Nat} {p : Option Bool} {v : BitVec n} {f : Fault}
    (h : extOffset p v = .error f) : f = .offsetSignUnknown := by
  unfold extOffset at h
  split at h
  · split at h
    · cases h
    · cases h
    · exact (Except.error.inj h).symm
  · cases h

theorem map_eq_error {α β : Type} {e : Except Fault α} {g : α → β} {f : Fault}
    (h : e.map g = .error f) : e = .error f := by
  cases e with
  | ok a => cases h
  | error f' => exact congrArg _ (Except.error.inj h)

/-- The one fault of an effective address (R84). -/
theorem State.ea_error {s : State} {m : MemOp} {f : Fault} (h : s.ea m = .error f) :
    f = .offsetSignUnknown := by
  cases m with
  | absR8 => exact extOffset_error (map_eq_error h)
  | absR16 => exact extOffset_error (map_eq_error h)
  | indR8 => exact extOffset_error (map_eq_error h)
  | indR16 => exact extOffset_error (map_eq_error h)
  | _ => cases h

section Load

variable {s : State} {w : Width} {m : MemOp} {a : Addr} (k : BitVec w.bits → Result)

theorem State.withLoad_read (ha : s.ea m = .ok a) (hw : a.toNat + w.bytes ≤ 0x1000000) :
    s.withLoad w m k = k (be w fun j => Memory.read s.ram (a.toNat + j)) := by
  unfold State.withLoad
  rw [ha, withOk_ok, State.memRead_eq_ok.2 ⟨hw, rfl⟩, withOk_ok]

theorem State.withLoad_crosses (ha : s.ea m = .ok a) (hw : 0x1000000 < a.toNat + w.bytes) :
    s.withLoad w m k = .fault .accessCrossesTop := by
  unfold State.withLoad
  rw [ha, withOk_ok, State.memRead_error (Nat.not_le.2 hw), withOk_error]

theorem State.withLoad_error {f : Fault} (ha : s.ea m = .error f) : s.withLoad w m k = .fault f := by
  unfold State.withLoad
  rw [ha, withOk_error]

end Load

/-- What a write of a float register leaves, when the flags are drawn after it (R24, D6). -/
theorem writeF_then_drawFlags (s : State) (f : FRegIx) (v : Word32) :
    (s.writeF f v).drawFlags.readF f = v ∧ s.frame (s.writeF f v).drawFlags [.flags, s.fregLoc f] :=
  ⟨by simp, State.frame_then_drawFlags (s.frame_writeF f v)⟩

/-- Settles O20: past the index checks the instruction is one load, with the stops of `withLoad`. -/
theorem loadFloat : Obligations.LoadFloat := by
  intro s d r m hd hr
  have hd1 : [d].all fregOk = true := by simpa using fregOk_iff.2 hd
  have hd2 : [d, r].all fregOk = true := by simpa using ⟨fregOk_iff.2 hd, fregOk_iff.2 hr⟩
  refine ⟨⟨_, requireFregs_pos hd2 _, writeF_then_drawFlags s d _⟩, fun hm => ?_⟩
  have he : exec (.ldFr (.form (.mem d m))) s =
      s.withLoad .w32 m fun v => .next (s.writeF d v).drawFlags :=
    (requireRegs_pos (all_regOk hm) _).trans (requireFregs_pos hd1 _)
  rw [he]
  refine ⟨fun a ha => ⟨fun hw => ?_, fun hw => ?_⟩, fun f hf => ?_⟩
  · exact ⟨_, State.withLoad_read _ ha hw, writeF_then_drawFlags s d _⟩
  · exact State.withLoad_crosses _ ha hw
  · exact ⟨State.ea_error hf, State.withLoad_error _ hf⟩

/-! ## Jumps -/

section DecodeJump

variable {nnn cond : Option (BitVec 3)} {get : Nat → Byte} {iNnn : Addr → Instr}
  {iCond : CondIx → Addr → Instr} {iOther : BitVec 3 → BitVec 5 → Instr}

/-- The variant of the unconditional form (R261): bits 4:0 of the sub-opcode are ignored (D34). -/
theorem decodeJump_nnn (h : nnn = some (variantOf (get 1))) :
    decodeJump nnn cond get iNnn iCond iOther = iNnn (addrAt get 2) := if_pos h

/-- The variant of the conditional form (R261). -/
theorem decodeJump_cond (h : nnn ≠ some (variantOf (get 1))) (h' : cond = some (variantOf (get 1))) :
    decodeJump nnn cond get iNnn iCond iOther = iCond (lowOf (get 1)) (addrAt get 2) :=
  (if_neg h).trans (if_pos h')

end DecodeJump

/-- JR and CALLR reach the address of the instruction plus the offset (R106, R263, R265). -/
theorem relTarget_toNat (s : State) (o : Addr) : ((s.relTarget o).toNat : Int) = relative s.ipo o := by
  have ho := o.isLt
  have hi := s.ipo.isLt
  have h5 : (5 : Addr).toNat = 5 := rfl
  simp only [State.relTarget, relative, BitVec.toInt_eq_toNat_cond, BitVec.toNat_sub, BitVec.toNat_add, h5]
  split <;> omega

/-- What a jump leaves (R261, D6). -/
theorem jump_then_drawFlags (s : State) (a : Addr) : s.frame (s.jump a).drawFlags [.flags, .ipo] :=
  State.frame_then_drawFlags (s.frame_jump a)

/-- What an instruction leaves that only falls through (R261, D6). -/
theorem fallThrough_frame (s : State) : s.frame s.drawFlags [.flags, .ipo] :=
  State.frame_mono s.frame_drawFlags (by simp)

/-- A conditional jump: the target when it is taken, the next instruction when it is not. -/
theorem onCond_jumpTo {s : State} {k : CondIx} {b : Bool} (a : Addr) (h : s.cond k = .ok b) :
    ∃ t, onCond k (jumpTo a) s = .next t ∧ t.ipo = (if b then a else s.ipo) ∧
      s.frame t [.flags, .ipo] := by
  rw [onCond_ok _ h]
  cases b with
  | true => exact ⟨_, rfl, rfl, jump_then_drawFlags s a⟩
  | false => exact ⟨_, rfl, rfl, fallThrough_frame s⟩

/-- Settles O29: the bytes by the two variants of `decodeJump`, the effect by `onCond_jumpTo`. -/
theorem jumpsSetIpo : Obligations.JumpsSetIpo := by
  refine ⟨?_, fun s a k b hb => ?_⟩
  · rintro p ss a1 a2 a3 v rfl
    refine ⟨fun h => ?_, fun h h' => ?_, fun h => ?_, fun h h' => ?_⟩
    · exact decode_of (congrArg Except.ok (decodeJump_nnn h)) (Nat.le_refl 5)
    · exact decode_of (congrArg Except.ok (decodeJump_cond h h')) (Nat.le_refl 5)
    · exact decode_of (congrArg Except.ok (decodeJump_nnn h)) (Nat.le_refl 5)
    · exact decode_of (congrArg Except.ok (decodeJump_cond h h')) (Nat.le_refl 5)
  · refine ⟨⟨_, rfl, rfl, jump_then_drawFlags s a⟩, ?_, onCond_jumpTo a hb, ?_⟩
    · exact ⟨_, rfl, relTarget_toNat s a, jump_then_drawFlags s (s.relTarget a)⟩
    · obtain ⟨t, he, hi, hf⟩ := onCond_jumpTo (s.relTarget a) hb
      refine ⟨t, he, ?_, hf⟩
      rw [hi, ← relTarget_toNat]
      cases b <;> rfl

/-! ## HMEM entries -/

section Hmem

variable {k : Word32} {s : State} (run : Nat → Result)

theorem withHmemIndex_run (h : k.toNat < 65536) (ho : 65534 ≤ k.toNat ∨ s.params.runOpen = true) :
    withHmemIndex k s run = run k.toNat := (if_pos h).trans (if_pos ho)

theorem withHmemIndex_above (h : 65536 ≤ k.toNat) :
    withHmemIndex k s run = .refused .hmemIndexAboveRange := if_neg (Nat.not_lt.2 h)

theorem withHmemIndex_closed (h : k.toNat < 65534) (ho : s.params.runOpen = false) :
    withHmemIndex k s run = .refused .systemVariable := by
  have hk : k.toNat < Config.hmemEntries := Nat.lt_trans h (by decide)
  refine (if_pos hk).trans (if_neg ?_)
  rintro (hle | hopen)
  · exact Nat.not_le.2 h hle
  · rw [ho] at hopen
    cases hopen

end Hmem

theorem exec_setvar {s : State} {x : SetForm} (h : ∀ q ∈ x.k.regs ++ x.v.regs, q.toNat < 26) :
    exec (.setvar (.form x)) s =
      withHmemIndex (s.src32 x.k) s fun k => .next (s.hmemWrite k (s.src32 x.v)).drawFlags :=
  requireRegs_pos (all_regOk h) _

theorem exec_getvar {s : State} {x : GetForm} (h : ∀ q ∈ x.d :: x.k.regs, q.toNat < 26) :
    exec (.getvar (.form x)) s =
      withHmemIndex (s.src32 x.k) s fun k => .next (s.writeReg .w32 x.d (s.hmemRead k)).drawFlags :=
  requireRegs_pos (all_regOk h) _

/-- Settles O44: the index passes `withHmemIndex`, and one entry is written. -/
theorem setvarWritesEntry : Obligations.SetvarWritesEntry := by
  rintro s x _ hx rfl hk ho
  refine ⟨_, (exec_setvar hx).trans (withHmemIndex_run _ hk ho), ?_, ?_⟩
  · simp [State.hmemRead, Memory.read_write]
  · exact State.frame_then_drawFlags (s.frame_hmemWrite _ _)

/-- Settles O45: the index passes `withHmemIndex`, and one register is written. -/
theorem getvarReadsEntry : Obligations.GetvarReadsEntry := by
  rintro s x _ hx rfl hk ho
  refine ⟨_, (exec_getvar hx).trans (withHmemIndex_run _ hk ho), ?_, ?_⟩
  · rw [State.readReg_drawFlags, State.readReg_writeReg]
  · exact State.frame_then_drawFlags (s.frame_writeReg .w32 x.d _)

/-- Settles O46: SETVAR and GETVAR give their index to the same check. -/
theorem hmemIndexRefused : Obligations.HmemIndexRefused := by
  intro s x y hx hy e
  rw [exec_setvar hx, exec_getvar hy, e]
  exact ⟨fun h => ⟨withHmemIndex_above _ h, withHmemIndex_above _ h⟩,
    fun h ho => ⟨withHmemIndex_closed _ h ho, withHmemIndex_closed _ h ho⟩⟩

/-! ## Launch -/

/-- What the loader accepts, as R114 says it. -/
theorem loadable_iff_disjoint {bs : List Block} : loadable bs = true ↔
    (∀ b ∈ bs, b.origin < 0x1000000 ∧ b.origin + b.bytes.length ≤ 0x1000000) ∧
      bs.Pairwise fun b c => ∀ i j, i < b.bytes.length → j < c.bytes.length →
        b.origin + i ≠ c.origin + j := by
  have hpair : ∀ b c : Block, b.overlaps c = false ↔
      ∀ i j, i < b.bytes.length → j < c.bytes.length → b.origin + i ≠ c.origin + j := fun b c => by
    rw [← Bool.not_eq_true, Block.overlaps_iff]
    simp only [not_exists, not_and, ne_eq]
  simp only [loadable_iff, Block.inRange_iff, hpair]
  rfl

/-- A launch changes the bytes of its blocks, SPR, SPC, RUN and IPO. -/
theorem frame_launch {s t : State} {bs : List Block} (h : s.launch bs = .next t) :
    s.frame t (.spr :: .spc :: .running :: .ipo ::
      bs.flatMap fun b => (List.range b.bytes.length).map fun j => .ram (b.origin + j)) := by
  obtain ⟨-, rfl⟩ := State.launch_eq_next.1 h
  refine ⟨fun l hl => ?_, rfl⟩
  cases l with
  | ram a =>
    refine congrArg BitVec.toNat (read_loadBlocks_off s.ram fun b hb j hj e => hl ?_)
    simp only [List.mem_cons, List.mem_flatMap, List.mem_map, List.mem_range]
    exact .inr (.inr (.inr (.inr ⟨b, hb, j, hj, congrArg Loc.ram e⟩)))
  | spr => simp at hl
  | spc => simp at hl
  | running => simp at hl
  | ipo => simp at hl
  | _ => rfl

/-- Settles O57: `loadable` is R114's condition, and blocks that share no byte do not undo each other. -/
theorem launchValues : Obligations.LaunchValues := by
  refine ⟨rfl, fun s bs good hgood => ⟨fun hg => ?_, fun hg => ?_⟩⟩
  · have hl : loadable bs = true := loadable_iff_disjoint.2 (hgood.1 hg)
    have he := (State.launch_eq_next (s := s)).2 ⟨hl, rfl⟩
    refine ⟨_, he, rfl, rfl, rfl, rfl, fun b hb j v hv => ?_, frame_launch he,
      fun hs => State.inv_launch hs he⟩
    obtain ⟨hj, rfl⟩ := List.getElem?_eq_some_iff.1 hv
    exact read_loadBlocks_on hj s.ram (loadable_iff.1 hl).2 hb
  · refine State.launch_refused (Bool.eq_false_iff.2 fun hl => hg ?_)
    exact hgood.2 (loadable_iff_disjoint.1 hl)

end Sys2Proof.Machine

namespace Sys2Proof

open Machine

/-! ## Bits 7:5 of a register byte (R103)

Bytes that differ in those bits of one byte give the same index wherever an index is read, and the same
value wherever a value is read that does not contain the byte. So each decoder gives the same instruction
when the byte is a register byte of the instruction that it gives. -/

/-- The bytes `h` differ from the bytes `g` in bits 7:5 of byte `k` at most, a byte after the sub-opcode. -/
structure HighBitsDiffer (k : Nat) (g h : Nat → Byte) : Prop where
  after : 2 ≤ k
  off : ∀ j, j ≠ k → h j = g j
  low : (h k).setWidth 5 = (g k).setWidth 5

/-- The register bytes of a memory operand begin where its parts begin. -/
theorem le_of_mem_memRegBytes {m : MemOp} {k n : Nat} (hk : k ∈ memRegBytes m n) : n ≤ k := by
  cases m <;> simp [memRegBytes] at hk <;> omega

/-- The register bytes of GETVAR: of the destination, and of an index in a register (R330). -/
theorem regBytes_getvar {p : Params} {f : GetForm} : regBytes p (.getvar (.form f)) =
    (p.lead 0xBF :: src32RegBytes f.k (p.lead 0xBF + 1)).filter (2 ≤ ·) := rfl

section Decoders

variable {k : Nat} {g h : Nat → Byte} (D : HighBitsDiffer k g h)

include D

theorem HighBitsDiffer.opcode : h 0 = g 0 := D.off 0 (by have := D.after; omega)

theorem HighBitsDiffer.subop : h 1 = g 1 := D.off 1 (by have := D.after; omega)

theorem HighBitsDiffer.ixAt_eq (n : Nat) : ixAt h n = ixAt g n := by
  unfold ixAt
  by_cases hn : n = k
  · rw [hn, D.low]
  · rw [D.off n hn]

theorem HighBitsDiffer.be_eq (w : Width) {n : Nat} (hn : k < n ∨ n + w.bytes ≤ k) :
    (be w fun j => h (n + j)) = be w fun j => g (n + j) :=
  be_congr fun j hj => D.off (n + j) (by omega)

theorem HighBitsDiffer.addrAt_eq {n : Nat} (hn : k < n ∨ n + 3 ≤ k) : addrAt h n = addrAt g n :=
  D.be_eq .w24 hn

/-- An address that stands clear of the register bytes of an instruction. -/
theorem HighBitsDiffer.addrAt_eq_of_mem {l : List Nat} {n : Nat} (hk : k ∈ l)
    (hl : ∀ x ∈ l, x < n ∨ n + 3 ≤ x) : addrAt h n = addrAt g n := D.addrAt_eq (hl k hk)

theorem HighBitsDiffer.memAt_eq {m : Mode} {n : Nat} (hk : k < n ∨ k ∈ memRegBytes (memAt m g n) n) :
    memAt m h n = memAt m g n := by
  cases m <;> simp only [memAt, memRegBytes, List.mem_cons, List.not_mem_nil, or_false] at hk ⊢
  case abs => rw [D.addrAt_eq (by omega)]
  case absImm => rw [D.addrAt_eq (by omega), D.addrAt_eq (by omega)]
  case absR8 | absR16 | absR24 => rw [D.addrAt_eq (by omega), D.ixAt_eq]
  case ind => rw [D.ixAt_eq]
  case indImm => rw [D.ixAt_eq, D.addrAt_eq (by omega)]
  case indR8 | indR16 | indR24 => rw [D.ixAt_eq, D.ixAt_eq]

theorem HighBitsDiffer.reg_eq (n : Nat) : src32At .reg h n = src32At .reg g n :=
  congrArg Src32.reg (D.ixAt_eq n)

theorem HighBitsDiffer.src32At_eq {kind : SrcKind} {n : Nat}
    (hk : k < n ∨ k ∈ src32RegBytes (src32At kind g n) n) : src32At kind h n = src32At kind g n := by
  cases kind with
  | imm => exact congrArg Src32.imm (D.be_eq .w32 (.inl (hk.resolve_right List.not_mem_nil)))
  | reg => exact D.reg_eq n

/-- LD to a register (R154 to R156). -/
theorem HighBitsDiffer.decodeLdForm_eq {p : Params} {w : Width} {sub : Byte}
    (hk : ∀ f, decodeLdForm p w sub g = .form f → k ∈ ldFormRegBytes f) :
    decodeLdForm p w sub h = decodeLdForm p w sub g := by
  revert hk
  unfold decodeLdForm
  rw [D.ixAt_eq, D.ixAt_eq]
  split
  · split
    · intro hk
      have hk2 : k = 2 := List.mem_singleton.1 (hk _ rfl)
      rw [D.be_eq w (.inl (by omega))]
    · exact fun _ => rfl
  · exact fun _ => rfl
  · split
    · intro hk
      rw [D.memAt_eq ((List.mem_cons.1 (hk _ rfl)).imp_left (by omega))]
    · exact fun _ => rfl
  · exact fun _ => rfl

/-- LD to memory (R157). -/
theorem HighBitsDiffer.decodeSt_eq {p : Params} {sub : Byte}
    (hk : k ∈ regBytes p (.ldMem (decodeSt p sub g))) : decodeSt p sub h = decodeSt p sub g := by
  revert hk
  unfold decodeSt
  rw [D.ixAt_eq]
  split
  · intro hk
    rw [D.memAt_eq ((List.mem_cons.1 hk).imp_left (by omega))]
  · intro hk
    rw [D.memAt_eq ((List.mem_cons.1 hk).imp_left (by omega))]
  · exact fun _ => rfl

/-- LD to a float register (R158). -/
theorem HighBitsDiffer.decodeFr_eq {p : Params} {sub : Byte}
    (hk : k ∈ regBytes p (.ldFr (decodeFr p sub g))) : decodeFr p sub h = decodeFr p sub g := by
  revert hk
  unfold decodeFr
  rw [D.ixAt_eq, D.ixAt_eq]
  split
  · exact fun _ => rfl
  · intro hk
    rw [D.memAt_eq ((List.mem_cons.1 hk).imp_left (by omega))]
  · exact fun _ => rfl

/-- LD, primary opcode 0x01 (R100 to R102). -/
theorem HighBitsDiffer.decodeLd_eq {p : Params} (hk : k ∈ regBytes p (decodeLd p g)) :
    decodeLd p h = decodeLd p g := by
  revert hk
  unfold decodeLd
  simp only [D.subop, D.ixAt_eq]
  split
  case h_1 => exact fun hk => by rw [D.off 3 (by have := List.mem_singleton.1 hk; omega)]
  case h_2 | h_8 | h_10 | h_11 | h_12 | h_13 => exact fun _ => rfl
  case h_3 => exact fun hk => by rw [D.addrAt_eq_of_mem (l := [2]) hk (by decide)]
  case h_4 =>
    exact fun hk => by
      rw [D.addrAt_eq_of_mem (l := [2]) hk (by decide), D.addrAt_eq_of_mem (l := [2]) hk (by decide)]
  case h_5 | h_6 | h_7 =>
    exact fun hk => by rw [D.addrAt_eq_of_mem (l := [2, 6]) hk (by decide)]
  case h_9 => exact fun hk => by rw [D.addrAt_eq_of_mem (l := [2, 3]) hk (by decide)]
  case h_14 =>
    split_ifs
    · exact fun _ => rfl
    · exact fun hk => by rw [D.addrAt_eq_of_mem (l := [2]) hk (by decide)]
    · exact fun hk => by rw [D.decodeLdForm_eq fun f e => by rw [e] at hk; exact hk]
    · exact fun hk => by rw [D.decodeLdForm_eq fun f e => by rw [e] at hk; exact hk]
    · exact fun hk => by rw [D.decodeLdForm_eq fun f e => by rw [e] at hk; exact hk]
    · exact fun hk => by rw [D.decodeSt_eq hk]
    · exact fun hk => by rw [D.decodeFr_eq hk]
    · exact fun _ => rfl

/-- The operands of ADD and SUB (R100, R102). -/
theorem HighBitsDiffer.decodeArith_eq (hk : ∀ f, decodeArith g = .form f → k ∈ arithRegBytes f) :
    decodeArith h = decodeArith g := by
  revert hk
  unfold decodeArith
  simp only [D.subop, D.ixAt_eq]
  split
  · exact fun hk => by rw [D.off 3 (by have := List.mem_singleton.1 (hk _ rfl); omega)]
  · exact fun _ => rfl
  · exact fun _ => rfl
  · split
    · exact fun hk => by rw [D.memAt_eq ((List.mem_cons.1 (hk _ rfl)).imp_left (by omega))]
    · exact fun _ => rfl

/-- ADD, primary opcode 0x02. -/
theorem HighBitsDiffer.decodeAdd_eq {p : Params} (hk : k ∈ regBytes p (decodeAdd p g)) :
    decodeAdd p h = decodeAdd p g := by
  revert hk
  unfold decodeAdd
  simp only [D.subop, D.ixAt_eq]
  split_ifs
  · exact fun hk => by rw [D.off 3 (by have := List.mem_singleton.1 hk; omega)]
  · exact fun hk => by rw [D.decodeArith_eq fun f e => by rw [e] at hk; exact hk]
  · exact fun _ => rfl
  · exact fun _ => rfl

/-- SUB, primary opcode 0x03. -/
theorem HighBitsDiffer.decodeSub_eq {p : Params} (hk : k ∈ regBytes p (decodeSub p g)) :
    decodeSub p h = decodeSub p g := by
  revert hk
  unfold decodeSub
  simp only [D.subop]
  split_ifs
  · exact fun hk => by rw [D.decodeArith_eq fun f e => by rw [e] at hk; exact hk]
  · exact fun _ => rfl
  · exact fun _ => rfl

/-- The operands of SETVAR: the one that stands first is read where the pattern puts it, the other one
right after it (R116). -/
theorem HighBitsDiffer.setFormAt_eq {x v : SrcKind} {n : Nat}
    (hk : k ∈ src32RegBytes (setFormAt x v g n).emitted.1 n ++
      src32RegBytes (setFormAt x v g n).emitted.2 (n + (setFormAt x v g n).emitted.1.kind.size)) :
    setFormAt x v h n = setFormAt x v g n := by
  rcases x with _ | _ <;> rcases v with _ | _
  case imm.imm => exact absurd hk List.not_mem_nil
  case imm.reg =>
    obtain rfl := List.mem_singleton.1 hk
    exact congrArg₂ SetForm.mk (D.src32At_eq (.inl (Nat.lt_succ_self k))) (D.reg_eq k)
  case reg.imm =>
    obtain rfl := List.mem_singleton.1 hk
    exact congrArg₂ SetForm.mk (D.reg_eq k) (D.src32At_eq (.inl (Nat.lt_succ_self k)))
  case reg.reg => exact congrArg₂ SetForm.mk (D.reg_eq n) (D.reg_eq (n + 1))

/-- SETVAR, primary opcode 0xBE. -/
theorem HighBitsDiffer.decodeSetvar_eq {p : Params} (hk : k ∈ regBytes p (.setvar (decodeSetvar p g))) :
    decodeSetvar p h = decodeSetvar p g := by
  revert hk
  unfold decodeSetvar
  rw [D.subop]
  split
  · exact fun hk => by rw [D.setFormAt_eq (List.mem_of_mem_filter hk)]
  · exact fun _ => rfl

/-- GETVAR, primary opcode 0xBF. -/
theorem HighBitsDiffer.decodeGetvar_eq {p : Params} (hk : k ∈ regBytes p (.getvar (decodeGetvar p g))) :
    decodeGetvar p h = decodeGetvar p g := by
  revert hk
  unfold decodeGetvar
  rw [D.subop, D.ixAt_eq]
  split
  · intro hk
    rw [regBytes_getvar] at hk
    rw [D.src32At_eq ((List.mem_cons.1 (List.mem_of_mem_filter hk)).imp_left fun e => by omega)]
  · exact fun _ => rfl

/-- An instruction whose operands are indices alone (R103). -/
theorem HighBitsDiffer.decodePush_eq (p : Params) : decodePush p h = decodePush p g := by
  simp only [decodePush, D.subop, D.ixAt_eq]

theorem HighBitsDiffer.decodePop_eq (p : Params) : decodePop p h = decodePop p g := by
  simp only [decodePop, D.subop, D.ixAt_eq]

theorem HighBitsDiffer.decodeDiv_eq (p : Params) : decodeDiv p h = decodeDiv p g := by
  simp only [decodeDiv, D.subop, D.ixAt_eq]

theorem HighBitsDiffer.decodeSdiv_eq (p : Params) : decodeSdiv p h = decodeSdiv p g := by
  simp only [decodeSdiv, D.subop, D.ixAt_eq]

theorem HighBitsDiffer.decodeRetif_eq (p : Params) : decodeRetif p h = decodeRetif p g := by
  simp only [decodeRetif, D.subop, D.ixAt_eq]

/-- A jump or a call has no register byte (R105, R106). -/
theorem HighBitsDiffer.decodeJump_eq {p : Params} {nnn cond : Option (BitVec 3)} {iNnn : Addr → Instr}
    {iCond : CondIx → Addr → Instr} {iOther : BitVec 3 → BitVec 5 → Instr}
    (hn : ∀ a, regBytes p (iNnn a) = []) (hc : ∀ c a, regBytes p (iCond c a) = [])
    (hk : k ∈ regBytes p (decodeJump nnn cond g iNnn iCond iOther)) :
    decodeJump nnn cond h iNnn iCond iOther = decodeJump nnn cond g iNnn iCond iOther := by
  revert hk
  unfold decodeJump
  rw [D.subop]
  split_ifs
  · exact fun hk => by rw [hn] at hk; cases hk
  · exact fun hk => by rw [hc] at hk; cases hk
  · exact fun _ => rfl

/-- Every instruction. -/
theorem HighBitsDiffer.decodeAt_eq {p : Params} (hk : ∀ i, decodeAt p g = .ok i → k ∈ regBytes p i) :
    decodeAt p h = decodeAt p g := by
  revert hk
  unfold decodeAt
  rw [D.opcode]
  simp only [D.subop, D.decodePush_eq, D.decodePop_eq, D.decodeDiv_eq, D.decodeSdiv_eq, D.decodeRetif_eq]
  split
  -- LD, ADD, SUB; CALL, CALLR, JP, JR; SETVAR, GETVAR: the primary opcodes whose operands hold more
  -- than indices.
  case h_2 => exact fun hk => by rw [D.decodeLd_eq (hk _ rfl)]
  case h_3 => exact fun hk => by rw [D.decodeAdd_eq (hk _ rfl)]
  case h_4 => exact fun hk => by rw [D.decodeSub_eq (hk _ rfl)]
  case h_22 | h_23 | h_24 | h_25 =>
    exact fun hk => by rw [D.decodeJump_eq (fun _ => rfl) (fun _ _ => rfl) (hk _ rfl)]
  case h_69 => exact fun hk => by rw [D.decodeSetvar_eq (hk _ rfl)]
  case h_70 => exact fun hk => by rw [D.decodeGetvar_eq (hk _ rfl)]
  all_goals exact fun _ => rfl

end Decoders

/-- Every register byte of pattern 1 stands after the sub-opcode (R96). -/
theorem two_le_of_mem_regBytes {p : Params} {i : Instr} {k : Nat} (hk : k ∈ regBytes p i) : 2 ≤ k := by
  have hone : k ∈ [2] → 2 ≤ k := fun h => (List.mem_singleton.1 h).ge
  have htwo : k ∈ [2, 3] → 2 ≤ k := fun h => by simp at h; omega
  have hmem : ∀ {m : MemOp}, k ∈ 2 :: memRegBytes m 3 → 2 ≤ k := fun h =>
    (List.mem_cons.1 h).elim (fun e => e.ge) fun h => Nat.le_of_succ_le (le_of_mem_memRegBytes h)
  have hld : ∀ {w : Width} {f : LdForm w}, k ∈ ldFormRegBytes f → 2 ≤ k := fun {w f} h => by
    cases f with
    | imm => exact hone h
    | reg => exact htwo h
    | mem => exact hmem h
  have harith : ∀ {f : ArithForm}, k ∈ arithRegBytes f → 2 ≤ k := fun {f} h => by
    cases f with
    | imm => exact hone h
    | reg => exact htwo h
    | mem => exact hmem h
    | fr => exact htwo h
  have hfilter : ∀ {l : List Nat}, k ∈ l.filter (2 ≤ ·) → 2 ≤ k := fun h => by
    simpa using (List.mem_filter.1 h).2
  cases i with
  | ldRN | addRN | ldAbsR => exact hone hk
  | ldRR | ldRFr | ldRrrInd => exact htwo hk
  | ldRAbs | ldRAbsImm | ldRAbsR8 | ldRAbsR16 | ldRAbsR24 => exact hmem hk
  | ldRInd | ldRIndImm | ldRIndR8 | ldRIndR16 | ldRIndR24 => exact hmem hk
  | ldRr f | ldRrr f | ldRrrr f =>
    match f with
    | .form _ => exact hld hk
    | .unlisted _ => cases hk
  | ldMem f =>
    match f with
    | .form (.reg _ _ _) | .form (.fr _ _) => exact hmem hk
    | .unlisted _ => cases hk
  | ldFr f =>
    match f with
    | .form (.fr _ _) => exact htwo hk
    | .form (.mem _ _) => exact hmem hk
    | .unlisted _ => cases hk
  | addR f | sub f =>
    match f with
    | .form _ => exact harith hk
    | .unlisted _ => cases hk
  | div f | sdiv f | pop f | pop16 f | pop24 f | pop32 f | push f | push16 f | push24 f | push32 f
  | setvar f | getvar f =>
    match f with
    | .form _ => exact hfilter hk
    | .unlisted _ => cases hk
  | _ => cases hk

/-- Settles O4: the two sequences of bytes differ in bits that no decoder looks at. -/
theorem registerByteHighBitsIgnored : Obligations.RegisterByteHighBitsIgnored := by
  intro p i g h k hi hk hoff hlow
  have D : HighBitsDiffer k g h := ⟨two_le_of_mem_regBytes hk, hoff, hlow⟩
  rw [D.decodeAt_eq fun j hj => by rw [hi] at hj; cases hj; exact hk]
  exact hi

end Sys2Proof

/-! # Memory (20_memory.md)

The statements about RAM and the instructions that reach it: operand fetches, accesses and their stops, the
effective addresses, the loads of wide registers, the stores; then the push and the pop of a float register. -/

namespace Sys2Proof.Machine

/-! ## Operand fetches -/

/-- Settles O6: the one operand fetch that fails makes the check of all of them fail. -/
theorem operandFetchPastTopFaults : Obligations.OperandFetchPastTopFaults := by
  intro s i x hr hd hx hcross
  have hfetch : (i.fetches s.params).all s.canFetch = false :=
    List.all_eq_false.2 ⟨x, hx, fun e => Nat.not_le.2 hcross (State.canFetch_iff.1 e)⟩
  simp only [step, hr, hd, hfetch, if_true, Bool.false_eq_true, if_false]

/-- Byte `k` of the instruction at IPO is the RAM byte at its address (R92). -/
theorem State.instrByte_at {s : State} {k : Nat} {a : Addr} (h : s.ipo + BitVec.ofNat 24 k = a) :
    s.instrByte k = Memory.read s.ram a.toNat := congrArg (fun b : Addr => Memory.read s.ram b.toNat) h

/-! ## Accesses to RAM -/

theorem State.memWrite_error {s : State} {w : Width} {a : Addr} (v : BitVec w.bits)
    (h : 0x1000000 < a.toNat + w.bytes) : s.memWrite w a v = .error .accessCrossesTop :=
  if_neg (Nat.not_le.2 h)

/-- An access of one byte ends at 0xFFFFFF at the latest (R65). -/
theorem byte_access_fits (a : Addr) : a.toNat + Width.w8.bytes ≤ Config.addrWrap := a.isLt

/-- Settles O10: a write inside RAM succeeds, and the laws of `memWrite` say what it leaves. -/
theorem ramWriteIsBigEndian : Obligations.RamWriteIsBigEndian := by
  intro s w a v hw
  obtain ⟨t, ht⟩ := State.memWrite_isOk (s := s) v hw
  refine ⟨t, ht, fun j hj => ?_, State.memRead_memWrite ht, State.frame_memWrite ht⟩
  rw [State.memWrite_byte ht j hj, byteOf_eq_shift]

/-- Settles O11: the bound of an access decides, and one byte always meets it. -/
theorem accessPastTopFaults : Obligations.AccessPastTopFaults := by
  intro s w a v b
  refine ⟨fun h => ⟨State.memRead_error (Nat.not_le.2 h), State.memWrite_error v h⟩, ?_, ?_⟩
  · exact State.memRead_eq_ok.2 ⟨byte_access_fits a, rfl⟩
  · exact State.memWrite_isOk b (byte_access_fits a)

/-! ## Effective addresses -/

/-- Settles O13: in each mode with a sum, it is that of two addresses, modulo 2^24 (R64, D10). -/
theorem effectiveAddresses : Obligations.EffectiveAddresses := by
  intro s a o b q
  have sum (x y : Addr) : ∃ e, (.ok (x + y) : Except Fault Addr) = .ok e ∧
      e.toNat = (x.toNat + y.toNat) % 2 ^ 24 := ⟨_, rfl, BitVec.toNat_add x y⟩
  exact ⟨rfl, rfl, sum a o, sum (s.readReg .w24 b) o, sum a (s.readReg .w24 q),
    sum (s.readReg .w24 b) (s.readReg .w24 q)⟩

section Offset

variable {n : Nat} {p : Option Bool} {v : BitVec n}

/-- An offset that is known, extended to 24 bits, is its value modulo 2^24 (R84). -/
theorem extOffset_of_known {z : Int} (h : offsetValue p v = some z) :
    ∃ e, extOffset p v = .ok e ∧ (e.toNat : Int) = z % 2 ^ 24 := by
  have zeroExt : ((v.setWidth 24).toNat : Int) = (v.toNat : Int) % 2 ^ 24 := by
    simp only [BitVec.toNat_setWidth, Int.natCast_emod]; rfl
  have signExt : ((v.signExtend 24).toNat : Int) = v.toInt % 2 ^ 24 := by
    rw [BitVec.signExtend, BitVec.toNat_ofInt]
    exact Int.toNat_of_nonneg (Int.emod_nonneg _ (by decide))
  unfold offsetValue at h
  unfold extOffset
  split at h
  · rw [if_pos ‹_›]
    match p with
    | none => cases h
    | some true => cases h; exact ⟨_, rfl, signExt⟩
    | some false => cases h; exact ⟨_, rfl, zeroExt⟩
  · rw [if_neg ‹_›]
    cases h
    exact ⟨_, rfl, zeroExt⟩

/-- An offset is not known where its top bit is set and `OFFSET_REG_SIGNED` is not supplied (R84, D11). -/
theorem extOffset_of_unknown (h : offsetValue p v = none) :
    extOffset p v = .error .offsetSignUnknown := by
  unfold offsetValue at h
  unfold extOffset
  split at h
  · rw [if_pos ‹_›, Option.map_eq_none_iff.1 h]
  · cases h

/-- A base and an offset register (R84). -/
theorem base_plus_extOffset (base : Addr) :
    (∀ z, offsetValue p v = some z → ∃ e, (extOffset p v).map (base + ·) = .ok e ∧
      (e.toNat : Int) = ((base.toNat : Int) + z) % 2 ^ 24) ∧
    (offsetValue p v = none → (extOffset p v).map (base + ·) = .error .offsetSignUnknown) := by
  refine ⟨fun z hz => ?_, fun h => ?_⟩
  · obtain ⟨e, he, hv⟩ := extOffset_of_known hz
    refine ⟨base + e, by rw [he]; rfl, ?_⟩
    rw [BitVec.toNat_add]
    omega
  · rw [extOffset_of_unknown h]; rfl

end Offset

/-- Settles O14: each of the four modes is a base and an offset register. -/
theorem effectiveAddressOfShortOffsets : Obligations.EffectiveAddressOfShortOffsets := by
  rintro s m a base b q o (⟨rfl, rfl, rfl⟩ | ⟨rfl, rfl, rfl⟩ | ⟨rfl, rfl, rfl⟩ | ⟨rfl, rfl, rfl⟩)
  · exact base_plus_extOffset base
  · exact base_plus_extOffset base
  · exact base_plus_extOffset (s.readReg .w24 b)
  · exact base_plus_extOffset (s.readReg .w24 b)

/-! ## The sub-opcodes of LD that are parameters -/

section DecodeLd

variable {p : Params} {get : Nat → Byte}

/-- The parameter of `LD rrr, (rrr)` lies in 27..41 (R101, R155). -/
theorem Params.wf_subopRrrInd {ss : Byte} (hp : p.wf = true) (h : p.subopRrrInd = some ss) :
    27 ≤ ss.toNat ∧ ss.toNat ≤ 41 := by
  simp only [Params.wf, Bool.and_eq_true, h, Option.all_some, inRange_iff] at hp
  tauto

/-- The parameter of `LD (nnn), r` lies in 58..227 (R101, R157). -/
theorem Params.wf_subopAbsR {ss : Byte} (hp : p.wf = true) (h : p.subopAbsR = some ss) :
    58 ≤ ss.toNat ∧ ss.toNat ≤ 227 := by
  simp only [Params.wf, Bool.and_eq_true, h, Option.all_some, inRange_iff] at hp
  tauto

/-- Above the `_r_*` constants the parameter of `LD rrr, (rrr)` comes first, then that of `LD (nnn), r`. -/
theorem decodeLd_param (hn : 12 < (get 1).toNat) :
    (p.subopRrrInd = some (get 1) → decodeLd p get = .ldRrrInd (ixAt get 2) (ixAt get 3)) ∧
    (p.subopRrrInd ≠ some (get 1) → p.subopAbsR = some (get 1) →
      decodeLd p get = .ldAbsR (ixAt get 2) (addrAt get 3)) := by
  unfold decodeLd
  dsimp only
  split
  case h_14 => exact ⟨fun h => if_pos h, fun h h' => (if_neg h).trans (if_pos h')⟩
  all_goals omega

end DecodeLd

/-! ## Loads of wide registers -/

/-- What a write of a general register leaves, when the flags are drawn after it (R22, D6). -/
theorem writeReg_then_drawFlags (s : State) (w : Width) (d : RegIx) (v : BitVec w.bits) :
    (s.writeReg w d v).drawFlags.readReg w d = v ∧
      s.frame (s.writeReg w d v).drawFlags (.flags :: s.regLocs w d) :=
  ⟨by simp, State.frame_then_drawFlags (s.frame_writeReg w d v)⟩

/-- Past the index check a load is `withLoad` and a write of the register. -/
theorem loadTo_of_regs {w : Width} {d : RegIx} {m : MemOp} {s : State} (hd : d.toNat < 26)
    (hm : ∀ q ∈ m.regs, q.toNat < 26) :
    loadTo w d m s = s.withLoad w m fun v => .next (s.writeReg w d v).drawFlags :=
  requireRegs_pos (all_regOk (List.forall_mem_cons.2 ⟨hd, hm⟩)) _

/-- Settles O18: the bytes by `decodeLd_param`; each of the four instructions is one load. -/
theorem loadWideFromMemory : Obligations.LoadWideFromMemory := by
  refine ⟨fun p ss dd bb hp hss => ?_, fun i s w d m hi hd hm => ?_⟩
  · have hn : 12 < ss.toNat := Nat.lt_of_lt_of_le (by decide) (Params.wf_subopRrrInd hp hss).1
    exact decode_of (congrArg Except.ok ((decodeLd_param hn).1 hss)) (Nat.le_refl 4)
  · have he : exec i s = loadTo w d m s := by
      obtain ⟨rfl, rfl⟩ | ⟨rfl, rfl⟩ | ⟨rfl, rfl⟩ | ⟨b, rfl, rfl, rfl⟩ := hi <;> rfl
    rw [he, loadTo_of_regs hd hm]
    refine ⟨fun a ha => ⟨fun hw => ?_, fun hw => ?_⟩, fun f hf => ?_⟩
    · exact ⟨_, State.withLoad_read _ ha hw, writeReg_then_drawFlags s w d _⟩
    · exact State.withLoad_crosses _ ha hw
    · exact ⟨State.ea_error hf, State.withLoad_error _ hf⟩

/-! ## Stores -/

theorem all_fregOk_singleton {f : FRegIx} (hf : f.toNat < 16) : [f].all fregOk = true :=
  List.all_eq_true.2 (List.forall_mem_singleton.2 (fregOk_iff.2 hf))

@[simp] theorem State.memRead_drawFlags (s : State) (w : Width) (a : Addr) :
    s.drawFlags.memRead w a = s.memRead w a := rfl

/-- When a store answers a next state, and which (R63, D6). -/
theorem State.storeTo_eq_next {s t : State} {w : Width} {m : MemOp} {v : BitVec w.bits} :
    s.storeTo w m v = .next t ↔ ∃ a, s.ea m = .ok a ∧ ∃ u, s.memWrite w a v = .ok u ∧ u.drawFlags = t := by
  simp only [State.storeTo, withOk_eq_next, Host.Outcome.next.injEq]

/-- Settles O12: the byte is in RAM at its address, and a fetch reads it there. -/
theorem storeIsSeenByNextFetch : Obligations.StoreIsSeenByNextFetch := by
  intro s t src a k h ha
  obtain ⟨-, h⟩ := requireRegs_eq_next.1 h
  obtain ⟨_, hea, u, hu, rfl⟩ := State.storeTo_eq_next.1 h
  cases hea
  calc u.drawFlags.instrByte k
      = Memory.read u.ram a.toNat := State.instrByte_at ha
    _ = byteOf .w8 (s.readReg .w8 src) 0 := State.memWrite_byte hu 0 (by decide)
    _ = s.readReg .w8 src := be_byteOf .w8 _

section Store

variable {s : State} {w : Width} {m : MemOp} {a : Addr} {v : BitVec w.bits}

/-- A store inside RAM writes the bytes of its operand (R63). -/
theorem State.storeTo_writes (ha : s.ea m = .ok a) (hw : a.toNat + w.bytes ≤ 0x1000000) :
    ∃ t, s.storeTo w m v = .next t ∧ t.memRead w a = .ok v ∧ s.frame t (.flags :: ramLocs w a) := by
  obtain ⟨u, hu⟩ := State.memWrite_isOk (s := s) v hw
  refine ⟨u.drawFlags, State.storeTo_eq_next.2 ⟨a, ha, u, hu, rfl⟩, ?_, ?_⟩
  · rw [State.memRead_drawFlags, State.memRead_memWrite hu]
  · exact State.frame_then_drawFlags (State.frame_memWrite hu)

theorem State.storeTo_crosses (ha : s.ea m = .ok a) (hw : 0x1000000 < a.toNat + w.bytes) :
    s.storeTo w m v = .fault .accessCrossesTop := by
  unfold State.storeTo
  rw [ha, withOk_ok, State.memWrite_error v hw, withOk_error]

theorem State.storeTo_error {f : Fault} (ha : s.ea m = .error f) : s.storeTo w m v = .fault f := by
  unfold State.storeTo
  rw [ha, withOk_error]

end Store

/-- Settles O22: the bytes by `decodeLd_param`; both instructions are one store. -/
theorem storeRegister : Obligations.StoreRegister := by
  refine ⟨fun p ss rr a1 a2 a3 hp hss => ?_, fun i s w m src hi hsrc hm => ?_⟩
  · have hss58 : 58 ≤ ss.toNat := (Params.wf_subopAbsR hp hss).1
    have hother : p.subopRrrInd ≠ some ss := fun h => by
      have := (Params.wf_subopRrrInd hp h).2
      omega
    have hn : 12 < ss.toNat := Nat.lt_of_lt_of_le (by decide) hss58
    exact decode_of (congrArg Except.ok ((decodeLd_param hn).2 hother hss)) (Nat.le_refl 6)
  · have he : exec i s = storeReg w m src s := by
      obtain rfl | ⟨b, rfl, rfl, rfl⟩ := hi <;> rfl
    have hs : storeReg w m src s = s.storeTo w m (s.readReg w src) :=
      requireRegs_pos (all_regOk (List.forall_mem_cons.2 ⟨hsrc, hm⟩)) _
    rw [he, hs]
    exact ⟨fun a ha => ⟨State.storeTo_writes ha, State.storeTo_crosses ha⟩,
      fun f hf => ⟨State.ea_error hf, State.storeTo_error hf⟩⟩

/-- Settles O23: past the index checks the instruction is one store. -/
theorem storeFloat : Obligations.StoreFloat := by
  intro s m f hf hm
  have he : exec (.ldMem (.form (.fr m f))) s = s.storeTo .w32 m (s.readF f) :=
    (requireRegs_pos (all_regOk hm) _).trans (requireFregs_pos (all_fregOk_singleton hf) _)
  rw [he]
  exact ⟨fun a ha => ⟨State.storeTo_writes (w := .w32) ha, State.storeTo_crosses (w := .w32) ha⟩,
    fun e he => ⟨State.ea_error he, State.storeTo_error he⟩⟩

/-! ## The register stack -/

section RegisterStack

variable {s : State} {w : Width}

theorem State.rsOverflows_eq_false (h : s.spr.toNat + w.bytes < 4194304) : s.rsOverflows w = false :=
  decide_eq_false (Nat.not_le.2 h)

theorem State.rsUnderflows_eq_false (h : w.bytes ≤ s.spr.toNat) : s.rsUnderflows w = false :=
  decide_eq_false (Nat.not_lt.2 h)

/-- SPR after a push that fits (R281). -/
theorem State.rsPushed_spr_toNat (v : BitVec w.bits) (h : s.spr.toNat + w.bytes < 4194304) :
    (s.rsPushed w v).spr.toNat = s.spr.toNat + w.bytes := by
  rw [State.rsPushed_spr, BitVec.toNat_add, BitVec.toNat_ofNat]
  omega

/-- SPR after a pop that finds its item (R282). -/
theorem State.rsDropped_spr_toNat (h : w.bytes ≤ s.spr.toNat) :
    (s.rsDropped w).spr.toNat = s.spr.toNat - w.bytes := by
  have := s.spr.isLt
  rw [State.rsDropped_spr, BitVec.toNat_sub, BitVec.toNat_ofNat]
  omega

/-- What a pop that finds its item gives (R282). -/
theorem State.rsTop_eq (h : w.bytes ≤ s.spr.toNat) : s.rsTop w = s.rsRead w (s.spr.toNat - w.bytes) :=
  congrArg (s.rsRead w) (State.rsDropped_spr_toNat h)

/-- What a push leaves at the old SPR (R281). -/
theorem State.rsRead_rsPushed (v : BitVec w.bits) : (s.rsPushed w v).rsRead w s.spr.toNat = v :=
  s.rsRead_rsWrite w s.spr.toNat v

/-- A pop to a float register changes SPR and the register (R282, R286). -/
theorem frame_rsDropped_writeF (f : FRegIx) (v : Word32) :
    s.frame ((s.rsDropped w).writeF f v) [.spr, s.fregLoc f] :=
  State.frame_trans (s.frame_rsDropped w) ((s.rsDropped w).frame_writeF f v)

end RegisterStack

section Float

variable {s : State} {f : FRegIx} (hf : f.toNat < 16)

include hf

/-- PUSH32 of a float register, where it fits (R281, R290). -/
theorem exec_pushF (h : s.spr.toNat + Width.w32.bytes < 4194304) :
    exec (.push32 (.form (.fr f))) s = .next (s.rsPushed .w32 (s.readF f)).drawFlags :=
  (requireFregs_pos (all_fregOk_singleton hf) _).trans
    (State.rsPush_fits _ (State.rsOverflows_eq_false h))

/-- POP32 of a float register, where there is an item (R282, R286). -/
theorem exec_popF (h : Width.w32.bytes ≤ s.spr.toNat) :
    exec (.pop32 (.form (.fr f))) s =
      .next ((s.rsDropped .w32).writeF f (s.rsTop .w32)).drawFlags :=
  (requireFregs_pos (all_fregOk_singleton hf) _).trans
    (State.rsPop_fits (State.rsUnderflows_eq_false h))

end Float

/-- Settles O42: the laws of a push that fits and of a pop that finds its item, at width 32. -/
theorem pushAndPopFloat : Obligations.PushAndPopFloat := by
  intro s f hf
  refine ⟨fun hw => ?_, fun hw => ?_⟩
  · refine ⟨_, exec_pushF hf hw, State.rsPushed_spr_toNat (w := .w32) (s.readF f) hw,
      State.rsRead_rsPushed (w := .w32) (s.readF f), ?_⟩
    exact State.frame_then_drawFlags (s.frame_rsPushed .w32 _)
  · refine ⟨_, exec_popF hf hw, State.rsDropped_spr_toNat (w := .w32) hw, ?_, ?_⟩
    · rw [State.readF_drawFlags, State.readF_writeF, State.rsTop_eq (w := .w32) hw]
    · exact State.frame_then_drawFlags (frame_rsDropped_writeF f _)

end Sys2Proof.Machine

/-! # Encoding (30_encoding.md)

The statements about the decoder and the encoder: which primary opcodes decode and what the fetch primitives
read; the sub-opcodes of LD, ADD and SUB, and the instructions that they give; the calls; the instructions
refused by name; last, that the decoder reads back what the encoder writes. -/

namespace Sys2Proof.Machine

/-! ## The primary opcode -/

/-- The decoder answers an instruction for the primary opcodes that R94 leaves assigned, and no other. -/
theorem decodeAt_isOk (p : Params) (get : Nat → Byte) :
    (decodeAt p get).isOk = !unassigned (get 0).toNat := by
  have hlt := (get 0).isLt
  unfold decodeAt
  split
  case h_79 =>
    have hun : unassigned (get 0).toNat = true := by
      simp only [unassigned, List.any_cons, List.any_nil, Bool.or_eq_true, Bool.and_eq_true,
        decide_eq_true_eq, imp_false] at *
      omega
    rw [hun]
    rfl
  all_goals
    rename_i hop
    rw [hop]
    rfl

/-- Settles O3: a step is the fault exactly where the decoder answers no instruction. -/
theorem unassignedOpcodesFault : Obligations.UnassignedOpcodesFault := by
  intro s hr
  have hok := decodeAt_isOk s.params s.instrByte
  cases hd : decodeAt s.params s.instrByte with
  | error e =>
    rw [hd] at hok
    refine ⟨fun _ => by simp only [step, hr, hd, if_true], fun h => ?_⟩
    rw [h] at hok
    cases hok
  | ok i =>
    rw [hd] at hok
    refine ⟨fun h => ?_, fun _ => ⟨i, rfl⟩⟩
    rw [h] at hok
    cases hok

/-- The converse of `decode_of`. -/
theorem decode_eq_ok {p : Params} {bs : List Byte} {i : Instr} (h : decode p bs = .ok i) :
    decodeAt p (fun k => bs.getD k 0) = .ok i ∧ i.length p ≤ bs.length := by
  unfold decode at h
  split at h
  · cases h
  · split at h
    · cases h
      exact ⟨‹_›, ‹_›⟩
    · cases h

/-! ## The fetch primitives -/

/-- Settles O7: a fetch that passes no bound is `fetch_eq`, and a signed fetch reads what a fetch reads. -/
theorem fetchReadsAndAdvances : Obligations.FetchReadsAndAdvances := by
  intro s w k h
  have hf := State.fetch_eq (State.canFetch_iff.2 h : s.canFetch (k, w) = true)
  refine ⟨hf, ?_⟩
  rw [State.fetchSigned, hf]
  rfl

/-! ## The `_r_*` sub-opcodes that name a memory operand (R100) -/

theorem modeOfSub_sub (m : Mode) : modeOfSub m.sub.toNat = some m := by
  cases m <;> rfl

theorem modeOfSub_range {n : Nat} {m : Mode} (h : modeOfSub n = some m) : 2 ≤ n ∧ n ≤ 11 := by
  unfold modeOfSub at h
  split at h
  case h_11 => cases h
  all_goals exact ⟨by decide, by decide⟩

theorem exists_modeOfSub {n : Nat} (h : 2 ≤ n) (h' : n ≤ 11) : ∃ m, modeOfSub n = some m := by
  interval_cases n <;> exact ⟨_, rfl⟩

/-- The instruction that loads a byte from a memory operand (R143 to R152): the converse of `byteLoad?`. -/
def byteLoadOf (d : RegIx) : MemOp → Instr
  | .abs a => .ldRAbs d a
  | .absImm a o => .ldRAbsImm d a o
  | .absR8 a q => .ldRAbsR8 d a q
  | .absR16 a q => .ldRAbsR16 d a q
  | .absR24 a q => .ldRAbsR24 d a q
  | .ind b => .ldRInd d b
  | .indImm b o => .ldRIndImm d b o
  | .indR8 b q => .ldRIndR8 d b q
  | .indR16 b q => .ldRIndR16 d b q
  | .indR24 b q => .ldRIndR24 d b q

theorem byteLoad?_byteLoadOf (d : RegIx) (m : MemOp) : byteLoad? (byteLoadOf d m) = some (d, m) := by
  cases m <;> rfl

theorem byteLoad?_eq_some {i : Instr} {d : RegIx} {m : MemOp} :
    byteLoad? i = some (d, m) ↔ i = byteLoadOf d m := by
  refine ⟨fun h => ?_, fun h => h ▸ byteLoad?_byteLoadOf d m⟩
  unfold byteLoad? at h
  split at h
  case h_11 => cases h
  all_goals
    cases h
    rfl

theorem exec_byteLoadOf (d : RegIx) (m : MemOp) (s : State) :
    exec (byteLoadOf d m) s = loadTo .w8 d m s := by
  cases m <;> rfl

theorem length_byteLoadOf (p : Params) (d : RegIx) (m : MemOp) :
    (byteLoadOf d m).length p = 3 + m.size := by
  cases m <;> rfl

theorem encode_byteLoadOf (p : Params) (d : RegIx) (m : MemOp) :
    encode p (byteLoadOf d m) = some (0x01 :: m.mode.sub :: ixByte d :: m.encode) := by
  cases m <;> rfl

section SubOpcodes

variable {p : Params} {get : Nat → Byte}

theorem decodeLd_mem {m : Mode} (h : modeOfSub (get 1).toNat = some m) :
    decodeLd p get = byteLoadOf (ixAt get 2) (memAt m get 3) := by
  unfold modeOfSub at h
  unfold decodeLd
  split at h
  case h_11 => cases h
  all_goals
    rename_i hsub
    simp only [hsub]
    cases h
    rfl

theorem decodeArith_mem {m : Mode} (h : modeOfSub (get 1).toNat = some m) :
    decodeArith get = .form (.mem (ixAt get 2) (memAt m get 3)) := by
  have hrange := modeOfSub_range h
  unfold decodeArith
  split
  case h_4 => rw [h]
  all_goals omega

/-- Below 12 a sub-opcode of LD that gives a byte load is one of a memory mode; 0 and 1 are not (R141,
R142). -/
theorem modeOfSub_of_byteLoad? {d : RegIx} {m : MemOp} (hsub : (get 1).toNat < 12)
    (h : byteLoad? (decodeLd p get) = some (d, m)) :
    ∃ mode, modeOfSub (get 1).toNat = some mode ∧ d = ixAt get 2 ∧ m = memAt mode get 3 := by
  by_cases hlo : 2 ≤ (get 1).toNat
  · obtain ⟨mode, hmode⟩ := exists_modeOfSub hlo (Nat.le_of_lt_succ hsub)
    rw [decodeLd_mem hmode, byteLoad?_byteLoadOf] at h
    cases h
    exact ⟨mode, hmode, rfl, rfl⟩
  · unfold decodeLd at h
    obtain e | e : (get 1).toNat = 0 ∨ (get 1).toNat = 1 := by omega
    · simp only [e] at h
      cases h
    · simp only [e] at h
      cases h

/-! ## The other sub-opcodes of LD, ADD and SUB -/

theorem Params.ldParam_eq_false_iff {sub : Byte} :
    p.ldParam sub = false ↔ p.subopRrrInd ≠ some sub ∧ p.subopAbsR ≠ some sub := by
  simp [Params.ldParam]

/-- The ranges of R101, where the sub-opcode is none of the two parameters. -/
theorem decodeLd_ranges (hp : p.ldParam (get 1) = false) :
    (inRange 13 26 (get 1) = true → decodeLd p get = .ldRr (decodeLdForm p .w16 (get 1) get)) ∧
    (inRange 27 41 (get 1) = true → decodeLd p get = .ldRrr (decodeLdForm p .w24 (get 1) get)) ∧
    (inRange 42 57 (get 1) = true → decodeLd p get = .ldRrrr (decodeLdForm p .w32 (get 1) get)) ∧
    (inRange 58 227 (get 1) = true → decodeLd p get = .ldMem (decodeSt p (get 1) get)) ∧
    (inRange 228 243 (get 1) = true → decodeLd p get = .ldFr (decodeFr p (get 1) get)) ∧
    (inRange 244 255 (get 1) = true → decodeLd p get = .ldUndef (get 1)) := by
  obtain ⟨hind, habs⟩ := Params.ldParam_eq_false_iff.1 hp
  simp only [inRange_iff]
  unfold decodeLd
  dsimp only
  split
  case h_14 =>
    rw [if_neg hind, if_neg habs]
    refine ⟨fun h => ?_, fun h => ?_, fun h => ?_, fun h => ?_, fun h => ?_, fun h => ?_⟩
    · rw [if_pos h.2]
    · rw [if_neg (by omega), if_pos h.2]
    · rw [if_neg (by omega), if_neg (by omega), if_pos h.2]
    · rw [if_neg (by omega), if_neg (by omega), if_neg (by omega), if_pos h.2]
    · rw [if_neg (by omega), if_neg (by omega), if_neg (by omega), if_neg (by omega), if_pos h.2]
    · rw [if_neg (by omega), if_neg (by omega), if_neg (by omega), if_neg (by omega),
        if_neg (by omega)]
  all_goals omega

theorem decodeLd_undef (h : 244 ≤ (get 1).toNat) (hp : p.ldParam (get 1) = false) :
    decodeLd p get = .ldUndef (get 1) := by
  obtain ⟨-, -, -, -, -, hundef⟩ := decodeLd_ranges hp
  exact hundef (inRange_iff.2 ⟨h, Nat.le_of_lt_succ (get 1).isLt⟩)

theorem subop_ne_zero (h : 0 < (get 1).toNat) : get 1 ≠ 0 := fun e => by
  rw [e] at h
  cases h

theorem decodeAdd_form (h0 : 0 < (get 1).toNat) (h : (get 1).toNat < 13) :
    decodeAdd p get = .addR (decodeArith get) := by
  unfold decodeAdd
  rw [if_neg (subop_ne_zero h0), if_pos h]

theorem decodeAdd_shared (h : inRange 13 243 (get 1) = true) :
    decodeAdd p get = shared p 0x02 (get 1) (.addR (.unlisted (get 1))) (.add16 (get 1)) (.add24 (get 1))
      (.add32 (get 1)) := by
  obtain ⟨hlo, hhi⟩ := inRange_iff.1 h
  unfold decodeAdd
  rw [if_neg (subop_ne_zero (by omega)), if_neg (Nat.not_lt.2 hlo), if_pos hhi]

theorem decodeAdd_undef (h : 244 ≤ (get 1).toNat) : decodeAdd p get = .addUndef (get 1) := by
  unfold decodeAdd
  rw [if_neg (subop_ne_zero (by omega)), if_neg (by omega), if_neg (by omega)]

theorem decodeSub_form (h : (get 1).toNat < 12) : decodeSub p get = .sub (decodeArith get) := if_pos h

theorem decodeSub_shared (h : inRange 12 243 (get 1) = true) :
    decodeSub p get = shared p 0x03 (get 1) (.sub (.unlisted (get 1))) (.sub16 (get 1)) (.sub24 (get 1))
      (.sub32 (get 1)) := by
  obtain ⟨hlo, hhi⟩ := inRange_iff.1 h
  unfold decodeSub
  rw [if_neg (Nat.not_lt.2 hlo), if_pos hhi]

theorem decodeSub_undef (h : 244 ≤ (get 1).toNat) : decodeSub p get = .subUndef (get 1) := by
  unfold decodeSub
  rw [if_neg (by omega), if_neg (by omega)]

end SubOpcodes

/-- Neither parameter of LD is a sub-opcode that names no constant (R101, R155, R157). -/
theorem Params.ldParam_undef {p : Params} {sub : Byte} (hp : p.wf = true) (h : 244 ≤ sub.toNat) :
    p.ldParam sub = false := by
  refine Params.ldParam_eq_false_iff.2 ⟨fun e => ?_, fun e => ?_⟩
  · have := (Params.wf_subopRrrInd hp e).2
    omega
  · have := (Params.wf_subopAbsR hp e).2
    omega

/-- Settles O52: each of the three decoders ends in that row, whose meaning is the fault. -/
theorem undefinedSubopcodesFault : Obligations.UndefinedSubopcodesFault := by
  intro p s sub rest hsub hp
  have hlen : 2 ≤ rest.length + 2 := Nat.le_add_left 2 _
  have hld := decodeLd_undef (get := fun k => (0x01 :: sub :: rest).getD k 0) hsub
    (Params.ldParam_undef hp hsub)
  exact ⟨⟨decode_of (congrArg Except.ok hld) hlen, rfl⟩,
    ⟨decode_of (congrArg Except.ok (decodeAdd_undef hsub)) hlen, rfl⟩,
    ⟨decode_of (congrArg Except.ok (decodeSub_undef hsub)) hlen, rfl⟩⟩

/-! ## Loads of a byte -/

/-- Settles O17: the bytes by computation; each of the ten instructions is one load, of a byte, which no
bound stops. -/
theorem loadByteFromMemory : Obligations.LoadByteFromMemory := by
  refine ⟨fun p dd bb qq a1 a2 a3 o1 o2 o3 => ?_, fun i s d m hi hd hm => ?_⟩
  · exact ⟨decode_of rfl (Nat.le_refl 6), decode_of rfl (Nat.le_refl 9), decode_of rfl (Nat.le_refl 7),
      decode_of rfl (Nat.le_refl 7), decode_of rfl (Nat.le_refl 7), decode_of rfl (Nat.le_refl 4),
      decode_of rfl (Nat.le_refl 7), decode_of rfl (Nat.le_refl 5), decode_of rfl (Nat.le_refl 5),
      decode_of rfl (Nat.le_refl 5)⟩
  · obtain rfl := byteLoad?_eq_some.1 hi
    rw [exec_byteLoadOf, loadTo_of_regs hd hm]
    refine ⟨fun a ha => ?_, fun f hf => ⟨State.ea_error hf, State.withLoad_error _ hf⟩⟩
    exact ⟨_, State.withLoad_read _ ha (byte_access_fits a), writeReg_then_drawFlags s .w8 d _⟩

/-! ## ADD and SUB -/

/-- A sum written to a register (R170, D7). -/
theorem writeReg_sum (s : State) (d : RegIx) (v : Byte) :
    ((s.writeReg .w8 d (s.readReg .w8 d + v)).drawFlags.readReg .w8 d).toNat =
        ((s.readReg .w8 d).toNat + v.toNat) % 256 ∧
      s.frame (s.writeReg .w8 d (s.readReg .w8 d + v)).drawFlags (.flags :: s.regLocs .w8 d) := by
  obtain ⟨hval, hframe⟩ := writeReg_then_drawFlags s .w8 d (s.readReg .w8 d + v)
  exact ⟨(congrArg BitVec.toNat hval).trans (BitVec.toNat_add _ _), hframe⟩

theorem toNat_sub_byte (a b : Byte) :
    ((a - b).toNat : Int) = ((a.toNat : Int) - b.toNat) % 256 := by
  have ha := a.isLt
  have hb := b.isLt
  rw [BitVec.toNat_sub]
  omega

/-- A difference written to a register (R174). -/
theorem writeReg_difference (s : State) (d : RegIx) (v : Byte) :
    (((s.writeReg .w8 d (s.readReg .w8 d - v)).drawFlags.readReg .w8 d).toNat : Int) =
        (((s.readReg .w8 d).toNat : Int) - v.toNat) % 256 ∧
      s.frame (s.writeReg .w8 d (s.readReg .w8 d - v)).drawFlags (.flags :: s.regLocs .w8 d) := by
  obtain ⟨hval, hframe⟩ := writeReg_then_drawFlags s .w8 d (s.readReg .w8 d - v)
  exact ⟨(congrArg (fun x : Byte => (x.toNat : Int)) hval).trans (toNat_sub_byte _ _), hframe⟩

/-- Settles O24: past the index check the instruction writes one sum. -/
theorem addImmediate : Obligations.AddImmediate := by
  rintro p s dd n d rfl
  refine ⟨decode_of rfl (Nat.le_refl 4), rfl, fun hd => ?_⟩
  exact ⟨_, requireRegs_pos (all_regOk (List.forall_mem_singleton.2 hd)) _, writeReg_sum s _ n⟩

theorem State.withLoad_eq_withOk (s : State) (w : Width) (m : MemOp) (k : BitVec w.bits → Result) :
    s.withLoad w m k = withOk ((s.ea m).bind fun a => s.memRead w a) k := by
  unfold State.withLoad
  cases s.ea m <;> rfl

section Arith

variable {mnemonic : String} {op : Byte → Byte → Byte} {x : ArithForm} {s : State}

/-- Past the index check an `_r_*` form of ADD or SUB goes on with its second operand. -/
theorem arithForm_of_src {e : Except Fault Byte} (hregs : ∀ q ∈ arithRegs x, q.toNat < 26)
    (he : s.arithSrc x = some e) :
    arithForm mnemonic op x s = withOk e fun v =>
      .next (s.writeReg .w8 (arithDest x) (op (s.readReg .w8 (arithDest x)) v)).drawFlags := by
  have hreg := requireRegs_pos (all_regOk hregs)
  cases x with
  | imm d n =>
    cases he
    exact hreg _
  | reg d r =>
    cases he
    exact hreg _
  | mem d m =>
    cases he
    exact (hreg _).trans (s.withLoad_eq_withOk .w8 m _)
  | fr d f => cases he

theorem inferredArith_of_src {e : Except Fault Byte} (hopt : s.params.optIn = true)
    (hregs : ∀ q ∈ arithRegs x, q.toNat < 26) (he : s.arithSrc x = some e) :
    inferredArith mnemonic op (.form x) s = withOk e fun v =>
      .next (s.writeReg .w8 (arithDest x) (op (s.readReg .w8 (arithDest x)) v)).drawFlags :=
  (if_pos hopt).trans (arithForm_of_src hregs he)

/-- A model that does not opt in refuses every inferred form, and every model the one with a float
register (R170, D5). -/
theorem inferredArith_refused (h : s.params.optIn = false ∨ s.arithSrc x = none) :
    inferredArith mnemonic op (.form x) s = unspecified mnemonic := by
  unfold inferredArith
  dsimp only
  split
  case isFalse => rfl
  case isTrue hopt =>
    cases x with
    | fr d f => rfl
    | _ => simp [hopt, State.arithSrc] at h

end Arith

/-- Settles O25: LD, ADD and SUB read the same memory operand from a sub-opcode; the effect is that of
`inferredArith` with a sum or a difference. -/
theorem inferredAddAndSubtract : Obligations.InferredAddAndSubtract := by
  refine ⟨?_, fun p sub bs i d m hsub hi hm => ?_, fun s x => ⟨fun hregs hopt => ?_, fun h => ?_⟩⟩
  · rintro p dd b d rfl
    exact ⟨decode_of rfl (Nat.le_refl 4), decode_of rfl (Nat.le_refl 4), decode_of rfl (Nat.le_refl 4),
      decode_of rfl (Nat.le_refl 4), rfl⟩
  · obtain ⟨hat, hlen⟩ := decode_eq_ok hi
    obtain rfl := Except.ok.inj hat
    obtain ⟨mode, hmode, rfl, rfl⟩ := modeOfSub_of_byteLoad? hsub hm
    have hpos : 0 < sub.toNat := Nat.lt_of_lt_of_le Nat.zero_lt_two (modeOfSub_range hmode).1
    rw [decodeLd_mem hmode, length_byteLoadOf] at hlen
    refine ⟨decode_of (congrArg Except.ok ?_) hlen, decode_of (congrArg Except.ok ?_) hlen⟩
    · exact (decodeAdd_form hpos (Nat.lt_succ_of_lt hsub)).trans
        (congrArg Instr.addR (decodeArith_mem hmode))
    · exact (decodeSub_form hsub).trans (congrArg Instr.sub (decodeArith_mem hmode))
  · refine ⟨fun v hv => ⟨?_, ?_⟩, fun f hf => ?_⟩
    · exact ⟨_, inferredArith_of_src hopt hregs hv, writeReg_sum s (arithDest x) v⟩
    · exact ⟨_, inferredArith_of_src hopt hregs hv, writeReg_difference s (arithDest x) v⟩
    · exact ⟨inferredArith_of_src hopt hregs hf, inferredArith_of_src hopt hregs hf⟩
  · exact ⟨inferredArith_refused h, inferredArith_refused h⟩

/-! ## Calls -/

/-- A push on a call stack that is not full (R270). -/
theorem State.callPush_pushes {s : State} (h : s.spc.toNat < 1048576) (ret : Addr) : ∃ t,
    s.callPush ret = .ok t ∧ t.spc.toNat = s.spc.toNat + 1 ∧ t.csRead s.spc.toNat = ret := by
  refine ⟨_, if_pos h, ?_, ?_⟩
  · have h1 : (1 : BitVec 24).toNat = 1 := rfl
    rw [BitVec.toNat_add, h1]
    omega
  · simp [State.csRead, State.csWrite, Memory.read_write]

/-- A call taken (R262, R263, D31). -/
theorem callTo_pushes {s : State} (h : s.spc.toNat < 1048576) (a : Addr) : ∃ t,
    callTo a s = .next t ∧ t.ipo = a ∧ t.spc.toNat = s.spc.toNat + 1 ∧ t.csRead s.spc.toNat = s.ipo ∧
      s.frame t [.flags, .ipo, .spc, .csram s.spc.toNat] := by
  obtain ⟨u, hu, hspc, hentry⟩ := State.callPush_pushes h s.ipo
  refine ⟨(u.jump a).drawFlags, ?_, rfl, hspc, hentry, ?_⟩
  · rw [callTo, hu, withOk_ok]
  · have hframe := State.frame_trans (State.frame_callPush hu) (u.frame_jump a)
    exact State.frame_mono (State.frame_then_drawFlags hframe) (by simp)

/-- The target that the statements name is the one that JR and CALLR reach. -/
theorem relTarget_eq {s : State} {o target : Addr} (h : (target.toNat : Int) = relative s.ipo o) :
    s.relTarget o = target :=
  BitVec.eq_of_toNat_eq (Int.ofNat.inj ((relTarget_toNat s o).trans h.symm))

/-- Settles O30: the bytes by the two variants of `decodeJump`; each of the four calls is `callTo` the
target. -/
theorem callsPushReturnAddress : Obligations.CallsPushReturnAddress := by
  refine ⟨?_, fun s i a target k hspc hi => ?_⟩
  · rintro p ss a1 a2 a3 v rfl
    refine ⟨fun h => ?_, fun h h' => ?_, fun h => ?_, fun h h' => ?_⟩
    · exact decode_of (congrArg Except.ok (decodeJump_nnn h)) (Nat.le_refl 5)
    · exact decode_of (congrArg Except.ok (decodeJump_cond h h')) (Nat.le_refl 5)
    · exact decode_of (congrArg Except.ok (decodeJump_nnn h)) (Nat.le_refl 5)
    · exact decode_of (congrArg Except.ok (decodeJump_cond h h')) (Nat.le_refl 5)
  · have he : exec i s = callTo target s := by
      obtain ⟨rfl, rfl⟩ | ⟨rfl, hk, rfl⟩ | ⟨rfl, ht⟩ | ⟨rfl, hk, ht⟩ := hi
      · rfl
      · exact onCond_ok (callTo _) hk
      · rw [← relTarget_eq ht]
        rfl
      · rw [← relTarget_eq ht]
        exact onCond_ok (callTo _) hk
    rw [he]
    exact callTo_pushes hspc target

/-! ## Instructions refused by name -/

/-- Settles O54: the meaning of each of these instructions is its refusal. -/
theorem unspecifiedArithmeticAndLogicRefused : Obligations.UnspecifiedArithmeticAndLogicRefused := by
  intro s b v k
  and_intros <;> rfl

/-- Settles O55: the meaning of each of these instructions is its refusal. -/
theorem unspecifiedControlAndStackRefused : Obligations.UnspecifiedControlAndStackRefused := by
  intro s b v k
  and_intros <;> rfl

/-- Settles O56: the meaning of each of these instructions is its refusal. -/
theorem unspecifiedFloatAndSystemRefused : Obligations.UnspecifiedFloatAndSystemRefused := by
  intro s b
  and_intros <;> rfl

end Sys2Proof.Machine

namespace Sys2Proof

open Machine

/-! ## What the encoder writes, the decoder reads back (R90, R116)

Each row of the encoder and of the decoder is read back (`ReadsBack`): the rows of LD, ADD and SUB by the
sub-opcode, the shared primary opcodes by the suffix, the calls and jumps by the variant, and the rows whose
pattern is a parameter by what `Params.place_spec` says of their bytes. -/

/-- The words of an instruction are as many bytes as `Instr.length` says (R102, R107). -/
theorem encode_length {p : Params} {i : Instr} {bs : List Byte} (h : encode p i = some bs) :
    bs.length = i.length p := by
  cases i with
  | nop => exact Laws.EncodeLength.nop _ _ h
  | ret => exact Laws.EncodeLength.ret _ _ h
  | ldRAbs d a => exact Laws.EncodeLength.ldRAbs _ _ _ _ h
  | ldRAbsImm d a o => exact Laws.EncodeLength.ldRAbsImm _ _ _ _ _ h
  | ldRAbsR8 d a q => exact Laws.EncodeLength.ldRAbsR8 _ _ _ _ _ h
  | ldRAbsR16 d a q => exact Laws.EncodeLength.ldRAbsR16 _ _ _ _ _ h
  | ldRAbsR24 d a q => exact Laws.EncodeLength.ldRAbsR24 _ _ _ _ _ h
  | ldRIndImm d b o => exact Laws.EncodeLength.ldRIndImm _ _ _ _ _ h
  | ldRr f => exact Laws.EncodeLength.ldRr _ _ _ h
  | ldRrr f => exact Laws.EncodeLength.ldRrr _ _ _ h
  | ldRrrr f => exact Laws.EncodeLength.ldRrrr _ _ _ h
  | ldMem f => exact Laws.EncodeLength.ldMem _ _ _ h
  | ldFr f => exact Laws.EncodeLength.ldFr _ _ _ h
  | ldRrrInd d b => exact Laws.EncodeLength.ldRrrInd _ _ _ _ h
  | ldAbsR s a => exact Laws.EncodeLength.ldAbsR _ _ _ _ h
  | addR f => exact Laws.EncodeLength.addR _ _ _ h
  | sub f => exact Laws.EncodeLength.sub _ _ _ h
  | div f => exact Laws.EncodeLength.div _ _ _ h
  | sdiv f => exact Laws.EncodeLength.sdiv _ _ _ h
  | callNnn | callrNnn | jpNnn | jrNnn => exact Laws.EncodeLength.jump h
  | callCond | callrCond | jpCond | jrCond => exact Laws.EncodeLength.condJump h
  | pop f => exact Laws.EncodeLength.pop _ _ _ h
  | pop16 f => exact Laws.EncodeLength.pop16 _ _ _ h
  | pop24 f => exact Laws.EncodeLength.pop24 _ _ _ h
  | pop32 f => exact Laws.EncodeLength.pop32 _ _ _ h
  | push f => exact Laws.EncodeLength.push _ _ _ h
  | push16 f => exact Laws.EncodeLength.push16 _ _ _ h
  | push24 f => exact Laws.EncodeLength.push24 _ _ _ h
  | push32 f => exact Laws.EncodeLength.push32 _ _ _ h
  | setvar f => exact Laws.EncodeLength.setvar _ _ _ h
  | getvar f => exact Laws.EncodeLength.getvar _ _ _ h
  | retif f => exact Laws.EncodeLength.retif _ _ _ h
  -- the rows that are written as a list of bytes
  | _ =>
    obtain rfl := Option.some.inj h
    rfl

/-- `i` has an encoding, and the decoder reads `i` back from its bytes, whatever bytes follow. -/
def ReadsBack (p : Params) (i : Instr) : Prop :=
  ∃ bs, encode p i = some bs ∧ ∀ rest, decodeAt p (fun k => (bs ++ rest).getD k 0) = .ok i

/-- `decode` looks at the length as well, which the encoder keeps. -/
theorem ReadsBack.decode {p : Params} {i : Instr} (h : ReadsBack p i) : ∃ bs, encode p i = some bs ∧
    bs.length = i.length p ∧ ∀ rest, decode p (bs ++ rest) = .ok i := by
  obtain ⟨bs, he, hd⟩ := h
  refine ⟨bs, he, encode_length he, fun rest => decode_of (hd rest) ?_⟩
  rw [List.length_append, encode_length he]
  exact Nat.le_add_right _ _

section Rows

variable {p : Params}

/-! ### LD (R100, R101) -/

/-- The operands of a listed form of LD stand where their bytes stand; likewise `decodeSt_form` and
`decodeFr_form`. -/
theorem decodeLdForm_form {w : Width} {sub : Byte} {x : LdForm w} {l rest : List Byte}
    (hf : p.form? 0x01 sub = some x.listed) (hl : l.drop 2 = x.operands ++ rest) :
    decodeLdForm p w sub (fun k => l.getD k 0) = .form x := by
  have hrest : l.drop 3 = (x.operands ++ rest).drop 1 := by rw [← hl, List.drop_drop]
  unfold decodeLdForm
  rw [hf]
  cases x with
  | imm d v => exact (if_pos rfl).trans (congrArg Given.form (congrArg₂ _ (ix_at hl) (be_at hrest)))
  | reg d s => exact (if_pos rfl).trans (congrArg Given.form (congrArg₂ _ (ix_at hl) (ix_at hrest)))
  | mem d m => exact (if_pos rfl).trans (congrArg Given.form (congrArg₂ _ (ix_at hl) (mem_at hrest)))

theorem decodeLdForm_unlisted {w : Width} {sub : Byte} (get : Nat → Byte)
    (h : (p.form? 0x01 sub).any (Form.isLd w) = false) : decodeLdForm p w sub get = .unlisted sub := by
  unfold decodeLdForm
  split
  case h_4 => rfl
  all_goals
    rename_i hf
    rw [hf] at h
    exact if_neg (by simpa [Form.isLd] using h)

theorem decodeSt_form {sub : Byte} {x : StForm} {l rest : List Byte}
    (hf : p.form? 0x01 sub = some x.listed) (hl : l.drop 2 = x.operands ++ rest) :
    decodeSt p sub (fun k => l.getD k 0) = .form x := by
  have hrest : l.drop 3 = (x.operands ++ rest).drop 1 := by rw [← hl, List.drop_drop]
  unfold decodeSt
  rw [hf]
  cases x with
  | reg w m s => exact congrArg Given.form (congrArg₂ (StForm.reg w) (mem_at hrest) (ix_at hl))
  | fr m f => exact congrArg Given.form (congrArg₂ StForm.fr (mem_at hrest) (ix_at hl))

theorem decodeSt_unlisted {sub : Byte} (get : Nat → Byte)
    (h : (p.form? 0x01 sub).any Form.isSt = false) : decodeSt p sub get = .unlisted sub := by
  unfold decodeSt
  split
  case h_3 => rfl
  all_goals
    rename_i hf
    rw [hf] at h
    cases h

theorem decodeFr_form {sub : Byte} {x : FrForm} {l rest : List Byte}
    (hf : p.form? 0x01 sub = some x.listed) (hl : l.drop 2 = x.operands ++ rest) :
    decodeFr p sub (fun k => l.getD k 0) = .form x := by
  have hrest : l.drop 3 = (x.operands ++ rest).drop 1 := by rw [← hl, List.drop_drop]
  unfold decodeFr
  rw [hf]
  cases x with
  | fr d s => exact congrArg Given.form (congrArg₂ FrForm.fr (ix_at hl) (ix_at hrest))
  | mem d m => exact congrArg Given.form (congrArg₂ FrForm.mem (ix_at hl) (mem_at hrest))

theorem decodeFr_unlisted {sub : Byte} (get : Nat → Byte)
    (h : (p.form? 0x01 sub).any Form.isFr = false) : decodeFr p sub get = .unlisted sub := by
  unfold decodeFr
  split
  case h_3 => rfl
  all_goals
    rename_i hf
    rw [hf] at h
    cases h

/-- What a form of LD needs to be written: its opcode is that of LD, and the parameters list it with a
sub-opcode in the range `lo` to `hi` of its row (R101). -/
structure IsListedLd (p : Params) (f : Form) (lo hi : Nat) : Prop where
  lists : p.listsLd f = true
  opcode : f.opcode = 0x01
  range : f.range = (lo, hi)

theorem LdForm.isListedLd {w : Width} {x : LdForm w} {lo hi : Nat} (hr : (Form.ldImm w).range = (lo, hi))
    (h : x.wf p = true) : IsListedLd p x.listed lo hi := by
  have hrange : x.listed.range = (Form.ldImm w).range := by cases w <;> cases x <;> rfl
  cases x <;> exact ⟨(Bool.and_eq_true_iff.1 h).2, rfl, hrange.trans hr⟩

theorem StForm.isListedLd {x : StForm} (h : x.wf p = true) : IsListedLd p x.listed 58 227 := by
  cases x <;> exact ⟨(Bool.and_eq_true_iff.1 h).2, rfl, rfl⟩

theorem FrForm.isListedLd {x : FrForm} (h : x.wf p = true) : IsListedLd p x.listed 228 243 := by
  cases x <;> exact ⟨(Bool.and_eq_true_iff.1 h).2, rfl, rfl⟩

/-- A row of LD whose forms the parameters list: where the sub-opcode lies in `lo` to `hi`, `dec` reads
the operands from the instruction. -/
def IsLdRow {α : Type} (p : Params) (row : Given α → Instr) (lo hi : Nat)
    (dec : Byte → (Nat → Byte) → Given α) : Prop :=
  ∀ get : Nat → Byte, p.ldParam (get 1) = false → inRange lo hi (get 1) = true →
    decodeLd p get = row (dec (get 1) get)

theorem isLdRow_ldRr : IsLdRow p .ldRr 13 26 (decodeLdForm p .w16) := fun _ hp h => by
  obtain ⟨hw16, -⟩ := decodeLd_ranges hp
  exact hw16 h

theorem isLdRow_ldRrr : IsLdRow p .ldRrr 27 41 (decodeLdForm p .w24) := fun _ hp h => by
  obtain ⟨-, hw24, -⟩ := decodeLd_ranges hp
  exact hw24 h

theorem isLdRow_ldRrrr : IsLdRow p .ldRrrr 42 57 (decodeLdForm p .w32) := fun _ hp h => by
  obtain ⟨-, -, hw32, -⟩ := decodeLd_ranges hp
  exact hw32 h

theorem isLdRow_ldMem : IsLdRow p .ldMem 58 227 (decodeSt p) := fun _ hp h => by
  obtain ⟨-, -, -, hmem, -⟩ := decodeLd_ranges hp
  exact hmem h

theorem isLdRow_ldFr : IsLdRow p .ldFr 228 243 (decodeFr p) := fun _ hp h => by
  obtain ⟨-, -, -, -, hfr, -⟩ := decodeLd_ranges hp
  exact hfr h

section LdRow

variable {α : Type} {row : Given α → Instr} {lo hi : Nat} {dec : Byte → (Nat → Byte) → Given α}
  (hrow : IsLdRow p row lo hi dec)

include hrow

/-- A form of the row, listed in its range. -/
theorem readsBack_ldForm {x : α} {f : Form} {operands : List Byte} (hf : IsListedLd p f lo hi)
    (he : encode p (row (.form x)) = (p.sub? f).map fun sub => p.place 0x01 sub operands)
    (hdec : ∀ sub l rest, p.form? 0x01 sub = some f → List.drop 2 l = operands ++ rest →
      dec sub (fun k => l.getD k 0) = .form x) : ReadsBack p (row (.form x)) := by
  obtain ⟨sub, hsub, hrange, hform, hparam⟩ := Params.listsLd_iff.1 hf.lists
  rw [hf.opcode] at hform
  rw [hf.range] at hrange
  rw [hsub] at he
  refine ⟨_, he, fun rest => congrArg Except.ok ?_⟩
  exact (hrow _ hparam hrange).trans (congrArg row (hdec sub _ rest hform rfl))

/-- A sub-opcode of the row that the parameters list for no form of it. -/
theorem readsBack_ldUnlisted {b : Byte} (hr : inRange lo hi b = true) (hparam : p.ldParam b = false)
    (he : encode p (row (.unlisted b)) = some [0x01, b]) (hdec : ∀ get, dec b get = .unlisted b) :
    ReadsBack p (row (.unlisted b)) :=
  ⟨_, he, fun _ => congrArg Except.ok ((hrow _ hparam hr).trans (congrArg row (hdec _)))⟩

end LdRow

/-- LD to a register of width `w` (R154 to R156). -/
theorem readsBack_ldWide {w : Width} {row : Given (LdForm w) → Instr} {lo hi : Nat}
    (hrow : IsLdRow p row lo hi (decodeLdForm p w)) (hr : (Form.ldImm w).range = (lo, hi))
    (he : ∀ f, encode p (row f) = f.encode p 0x01 LdForm.listed LdForm.operands)
    {f : Given (LdForm w)} (h : f.wfLd p lo hi = true) : ReadsBack p (row f) := by
  cases f with
  | form x =>
    exact readsBack_ldForm hrow (LdForm.isListedLd hr h) (he _) fun _ _ _ => decodeLdForm_form
  | unlisted b =>
    simp only [Given.wfLd, Bool.and_eq_true, Bool.not_eq_true'] at h
    obtain ⟨⟨hrange, hparam⟩, hlisted⟩ := h
    exact readsBack_ldUnlisted hrow hrange hparam (he _) fun get => decodeLdForm_unlisted get hlisted

/-- LD to memory (R157). -/
theorem readsBack_ldMem {f : Given StForm} (h : (Instr.ldMem f).wf p = true) :
    ReadsBack p (.ldMem f) := by
  cases f with
  | form x =>
    exact readsBack_ldForm isLdRow_ldMem (StForm.isListedLd h) rfl fun _ _ _ => decodeSt_form
  | unlisted b =>
    simp only [Instr.wf, Bool.and_eq_true, Bool.not_eq_true'] at h
    obtain ⟨⟨hrange, hparam⟩, hlisted⟩ := h
    exact readsBack_ldUnlisted isLdRow_ldMem hrange hparam rfl fun get => decodeSt_unlisted get hlisted

/-- LD to a float register (R158). -/
theorem readsBack_ldFr {f : Given FrForm} (h : (Instr.ldFr f).wf p = true) :
    ReadsBack p (.ldFr f) := by
  cases f with
  | form x =>
    exact readsBack_ldForm isLdRow_ldFr (FrForm.isListedLd h) rfl fun _ _ _ => decodeFr_form
  | unlisted b =>
    simp only [Instr.wf, Bool.and_eq_true, Bool.not_eq_true'] at h
    obtain ⟨⟨hrange, hparam⟩, hlisted⟩ := h
    exact readsBack_ldUnlisted isLdRow_ldFr hrange hparam rfl fun get => decodeFr_unlisted get hlisted

theorem readsBack_ldUndef {b : Byte} (h : (Instr.ldUndef b).wf p = true) :
    ReadsBack p (.ldUndef b) := by
  simp only [Instr.wf, Bool.and_eq_true, Bool.not_eq_true', inRange_iff] at h
  obtain ⟨hrange, hparam⟩ := h
  exact ⟨_, rfl, fun rest => congrArg Except.ok (decodeLd_undef hrange.1 hparam)⟩

/-- LD with the sub-opcode that is a parameter (R155). -/
theorem readsBack_ldRrrInd {d b : RegIx} (h : (Instr.ldRrrInd d b).wf p = true) :
    ReadsBack p (.ldRrrInd d b) := by
  simp only [Instr.wf, Bool.and_eq_true, Option.any_eq_true, inRange_iff] at h
  obtain ⟨-, ss, hss, hrange⟩ := h
  refine ⟨_, congrArg (Option.map _) hss, fun rest => congrArg Except.ok ?_⟩
  have hn : 12 < ss.toNat := Nat.lt_of_lt_of_le (by decide) hrange.1
  exact ((decodeLd_param hn).1 hss).trans (congrArg₂ Instr.ldRrrInd (ix_at rfl) (ix_at rfl))

/-- LD with the sub-opcode that is a parameter (R157). -/
theorem readsBack_ldAbsR {s : RegIx} {a : Addr} (h : (Instr.ldAbsR s a).wf p = true) :
    ReadsBack p (.ldAbsR s a) := by
  simp only [Instr.wf, Bool.and_eq_true, Option.any_eq_true, inRange_iff, bne_iff_ne] at h
  obtain ⟨⟨-, ss, hss, hrange⟩, hne⟩ := h
  refine ⟨_, congrArg (Option.map _) hss, fun rest => congrArg Except.ok ?_⟩
  have hn : 12 < ss.toNat := Nat.lt_of_lt_of_le (by decide) hrange.1
  have hother : p.subopRrrInd ≠ some ss := fun e => hne (hss.trans e.symm)
  exact ((decodeLd_param hn).2 hother hss).trans (congrArg₂ Instr.ldAbsR (ix_at rfl) (addr_at rfl))

/-- LD of a byte from memory (R143 to R152). -/
theorem readsBack_byteLoadOf (d : RegIx) (m : MemOp) : ReadsBack p (byteLoadOf d m) := by
  refine ⟨_, encode_byteLoadOf p d m, fun rest => congrArg Except.ok ?_⟩
  exact (decodeLd_mem (modeOfSub_sub m.mode)).trans (congrArg₂ byteLoadOf (ix_at rfl) (mem_at rfl))

/-! ### Shared primary opcodes (N29) -/

/-- A byte that stands for the mnemonic of a width; the base mnemonic is the one of width 8. -/
theorem shared_suffix {op b : Byte} {w : Width} (base i16 i24 i32 : Instr) :
    (p.suffix? op b == some w) = true → shared p op b base i16 i24 i32 =
      match w with
      | .w8 => base
      | .w16 => i16
      | .w24 => i24
      | .w32 => i32 := fun h => by
  unfold shared
  rw [beq_iff_eq.1 h]
  cases w <;> rfl

theorem shared_base {op b : Byte} (base i16 i24 i32 : Instr) (h : p.isBase op b = true) :
    shared p op b base i16 i24 i32 = base := by
  obtain h | h := Bool.or_eq_true_iff.1 h
  · unfold shared
    rw [beq_iff_eq.1 h]
  · exact shared_suffix base i16 i24 i32 h

/-! ### ADD and SUB (R100, R170, R174) -/

/-- The operands of ADD and SUB stand where their bytes stand (R100, R102). -/
theorem decodeArith_encode (op : Byte) (x : ArithForm) (rest : List Byte) :
    decodeArith (fun k => (op :: x.encode ++ rest).getD k 0) = .form x := by
  cases x with
  | imm d n => exact congrArg Given.form (congrArg₂ ArithForm.imm (ix_at rfl) rfl)
  | reg d s => exact congrArg Given.form (congrArg₂ ArithForm.reg (ix_at rfl) (ix_at rfl))
  | mem d m =>
    exact (decodeArith_mem (modeOfSub_sub m.mode)).trans
      (congrArg Given.form (congrArg₂ ArithForm.mem (ix_at rfl) (mem_at rfl)))
  | fr d f => exact congrArg Given.form (congrArg₂ ArithForm.fr (ix_at rfl) (ix_at rfl))

theorem readsBack_addShared {b : Byte} {i : Instr} (hr : inRange 13 243 b = true)
    (he : encode p i = some [0x02, b])
    (hs : shared p 0x02 b (.addR (.unlisted b)) (.add16 b) (.add24 b) (.add32 b) = i) : ReadsBack p i :=
  ⟨_, he, fun _ => congrArg Except.ok ((decodeAdd_shared hr).trans hs)⟩

theorem readsBack_subShared {b : Byte} {i : Instr} (hr : inRange 12 243 b = true)
    (he : encode p i = some [0x03, b])
    (hs : shared p 0x03 b (.sub (.unlisted b)) (.sub16 b) (.sub24 b) (.sub32 b) = i) : ReadsBack p i :=
  ⟨_, he, fun _ => congrArg Except.ok ((decodeSub_shared hr).trans hs)⟩

theorem readsBack_addForm {x : ArithForm} {sub : Byte} {r : List Byte} (hx : x.encode = sub :: r)
    (hpos : 0 < sub.toNat) (hlt : sub.toNat < 13) : ReadsBack p (.addR (.form x)) := by
  refine ⟨0x02 :: x.encode, rfl, fun rest => congrArg Except.ok ?_⟩
  have harith := decodeArith_encode 0x02 x rest
  rw [hx] at harith ⊢
  exact (decodeAdd_form hpos hlt).trans (congrArg Instr.addR harith)

theorem readsBack_subForm {x : ArithForm} {sub : Byte} {r : List Byte} (hx : x.encode = sub :: r)
    (hlt : sub.toNat < 12) : ReadsBack p (.sub (.form x)) := by
  refine ⟨0x03 :: x.encode, rfl, fun rest => congrArg Except.ok ?_⟩
  have harith := decodeArith_encode 0x03 x rest
  rw [hx] at harith ⊢
  exact (decodeSub_form hlt).trans (congrArg Instr.sub harith)

/-- ADD with a sub-opcode of 1 to 243. -/
theorem readsBack_addR {f : Given ArithForm} (h : (Instr.addR f).wf p = true) :
    ReadsBack p (.addR f) := by
  match f with
  | .form (.imm _ _) => cases h
  | .form (.reg _ _) | .form (.fr _ _) => exact readsBack_addForm rfl (by decide) (by decide)
  | .form (.mem _ m) =>
    obtain ⟨hlo, hhi⟩ := modeOfSub_range (modeOfSub_sub m.mode)
    exact readsBack_addForm rfl (by omega) (by omega)
  | .unlisted _ =>
    obtain ⟨hr, hb⟩ := Bool.and_eq_true_iff.1 h
    exact readsBack_addShared hr rfl (shared_base _ _ _ _ hb)

/-- SUB with a sub-opcode of 0 to 243. -/
theorem readsBack_sub {f : Given ArithForm} (h : (Instr.sub f).wf p = true) :
    ReadsBack p (.sub f) := by
  match f with
  | .form (.imm _ _) | .form (.reg _ _) => exact readsBack_subForm rfl (by decide)
  | .form (.mem _ m) =>
    obtain ⟨-, hhi⟩ := modeOfSub_range (modeOfSub_sub m.mode)
    exact readsBack_subForm rfl (by omega)
  | .form (.fr _ _) => cases h
  | .unlisted _ =>
    obtain ⟨hr, hb⟩ := Bool.and_eq_true_iff.1 h
    exact readsBack_subShared hr rfl (shared_base _ _ _ _ hb)

theorem readsBack_addUndef {b : Byte} (h : inRange 244 255 b = true) : ReadsBack p (.addUndef b) :=
  ⟨_, rfl, fun _ => congrArg Except.ok (decodeAdd_undef (inRange_iff.1 h).1)⟩

theorem readsBack_subUndef {b : Byte} (h : inRange 244 255 b = true) : ReadsBack p (.subUndef b) :=
  ⟨_, rfl, fun _ => congrArg Except.ok (decodeSub_undef (inRange_iff.1 h).1)⟩

/-! ### CALL, CALLR, JP, JR (R261) -/

/-- The primary opcode of a jump or call, whose variants are `nnn` and `cond` (R261). -/
def IsJumpRow (p : Params) (op : Byte) (nnn cond : Option (BitVec 3)) (iNnn : Addr → Instr)
    (iCond : CondIx → Addr → Instr) (iOther : BitVec 3 → BitVec 5 → Instr) : Prop :=
  ∀ bs : List Byte, decodeAt p (fun k => (op :: bs).getD k 0) =
    .ok (decodeJump nnn cond (fun k => (op :: bs).getD k 0) iNnn iCond iOther)

theorem isJumpRow_call :
    IsJumpRow p 0x15 p.callNnn p.callCond .callNnn .callCond .callOther := fun _ => rfl

theorem isJumpRow_callr :
    IsJumpRow p 0x16 p.callrNnn p.callrCond .callrNnn .callrCond .callrOther := fun _ => rfl

theorem isJumpRow_jp : IsJumpRow p 0x17 p.jpNnn p.jpCond .jpNnn .jpCond .jpOther := fun _ => rfl

theorem isJumpRow_jr : IsJumpRow p 0x18 p.jrNnn p.jrCond .jrNnn .jrCond .jrOther := fun _ => rfl

section Jump

variable {op : Byte} {nnn cond : Option (BitVec 3)} {iNnn : Addr → Instr}
  {iCond : CondIx → Addr → Instr} {iOther : BitVec 3 → BitVec 5 → Instr}

/-- A variant of neither form (R261). -/
theorem decodeJump_other {get : Nat → Byte} (h : nnn ≠ some (variantOf (get 1)))
    (h' : cond ≠ some (variantOf (get 1))) :
    decodeJump nnn cond get iNnn iCond iOther = iOther (variantOf (get 1)) (lowOf (get 1)) :=
  (if_neg h).trans (if_neg h')

variable (hrow : IsJumpRow p op nnn cond iNnn iCond iOther)

include hrow

/-- The low 5 bits of the sub-opcode are written as zero, and ignored (D34). -/
theorem readsBack_nnn {a : Addr} (he : encode p (iNnn a) = encodeNnn op nnn a) (h : wfNnn nnn = true) :
    ReadsBack p (iNnn a) := by
  obtain ⟨v, rfl⟩ := Option.isSome_iff_exists.1 h
  refine ⟨_, he, fun rest => (hrow _).trans (congrArg Except.ok ?_)⟩
  refine (decodeJump_nnn ?_).trans (congrArg iNnn (addr_at rfl))
  exact congrArg some (variantOf_subOf v 0).symm

theorem readsBack_cond {a : Addr} {k : CondIx} (he : encode p (iCond k a) = encodeCond op cond k a)
    (h : wfCond nnn cond k = true) : ReadsBack p (iCond k a) := by
  simp only [wfCond, Bool.and_eq_true, bne_iff_ne] at h
  obtain ⟨⟨hsome, hne⟩, -⟩ := h
  obtain ⟨v, rfl⟩ := Option.isSome_iff_exists.1 hsome
  refine ⟨_, he, fun rest => (hrow _).trans (congrArg Except.ok ?_)⟩
  have hv : some v = some (variantOf (subOf v k)) := congrArg some (variantOf_subOf v k).symm
  refine (decodeJump_cond (fun e => ?_) ?_).trans (congrArg₂ iCond (lowOf_subOf v k) (addr_at rfl))
  · exact hne (hv.trans e.symm)
  · exact hv

theorem readsBack_otherVariant {v : BitVec 3} {k : BitVec 5}
    (he : encode p (iOther v k) = some [op, subOf v k]) (h : wfOtherVariant nnn cond v = true) :
    ReadsBack p (iOther v k) := by
  simp only [wfOtherVariant, Bool.and_eq_true, bne_iff_ne] at h
  obtain ⟨hnnn, hcond⟩ := h
  refine ⟨_, he, fun rest => (hrow _).trans (congrArg Except.ok ?_)⟩
  have hv : some (variantOf (subOf v k)) = some v := congrArg some (variantOf_subOf v k)
  refine (decodeJump_other (fun e => ?_) fun e => ?_).trans
    (congrArg₂ iOther (variantOf_subOf v k) (lowOf_subOf v k))
  · exact hnnn (e.trans hv)
  · exact hcond (e.trans hv)

end Jump

/-! ### The primary opcodes whose pattern is a parameter (R95 to R99) -/

section Decoders

variable {get : Nat → Byte}

theorem decodePush_push {w : Width} (h : p.form? 0x1C (get 1) = some (.push w)) :
    decodePush p get = pushOf w (ixAt get (p.lead 0x1C)) := by
  unfold decodePush
  rw [h]
  cases w <;> rfl

theorem decodePush_pushFr (h : p.form? 0x1C (get 1) = some .pushFr) :
    decodePush p get = .push32 (.form (.fr (ixAt get (p.lead 0x1C)))) := by
  unfold decodePush
  rw [h]

theorem decodePush_unlisted (h : p.form? 0x1C (get 1) = none) :
    decodePush p get = .push (.unlisted (get 1)) := by
  unfold decodePush
  rw [h]

theorem decodePop_pop {w : Width} (h : p.form? 0x1A (get 1) = some (.pop w)) :
    decodePop p get = popOf w (ixAt get (p.lead 0x1A)) := by
  unfold decodePop
  rw [h]
  cases w <;> rfl

theorem decodePop_popFr (h : p.form? 0x1A (get 1) = some .popFr) :
    decodePop p get = .pop32 (.form (.fr (ixAt get (p.lead 0x1A)))) := by
  unfold decodePop
  rw [h]

theorem decodePop_unlisted (h : p.form? 0x1A (get 1) = none) :
    decodePop p get = .pop (.unlisted (get 1)) := by
  unfold decodePop
  rw [h]

theorem decodeDiv_div {w : Width} (h : p.form? 0x04 (get 1) = some (.div w)) :
    decodeDiv p get = .form ⟨w, ixAt get (p.lead 0x04), ixAt get (p.lead 0x04 + 1)⟩ := by
  unfold decodeDiv
  rw [h]

theorem decodeDiv_unlisted (h : p.form? 0x04 (get 1) = none) :
    decodeDiv p get = .unlisted (get 1) := by
  unfold decodeDiv
  rw [h]

theorem decodeSdiv_sdiv {w : Width} (h : p.form? 0x5C (get 1) = some (.sdiv w)) :
    decodeSdiv p get = .form ⟨w, ixAt get (p.lead 0x5C), ixAt get (p.lead 0x5C + 1)⟩ := by
  unfold decodeSdiv
  rw [h]

theorem decodeSdiv_unlisted (h : p.form? 0x5C (get 1) = none) :
    decodeSdiv p get = .unlisted (get 1) := by
  unfold decodeSdiv
  rw [h]

theorem decodeSetvar_setvar {k v : SrcKind} (h : p.form? 0xBE (get 1) = some (.setvar k v)) :
    decodeSetvar p get = .form (setFormAt k v get (p.lead 0xBE)) := by
  unfold decodeSetvar
  rw [h]

theorem decodeSetvar_unlisted (h : p.form? 0xBE (get 1) = none) :
    decodeSetvar p get = .unlisted (get 1) := by
  unfold decodeSetvar
  rw [h]

theorem decodeGetvar_getvar {k : SrcKind} (h : p.form? 0xBF (get 1) = some (.getvar k)) :
    decodeGetvar p get =
      .form ⟨ixAt get (p.lead 0xBF), src32At k get (p.lead 0xBF + 1)⟩ := by
  unfold decodeGetvar
  rw [h]

theorem decodeGetvar_unlisted (h : p.form? 0xBF (get 1) = none) :
    decodeGetvar p get = .unlisted (get 1) := by
  unfold decodeGetvar
  rw [h]

theorem decodeRetif_retif (h : p.form? 0xFE (get 1) = some .retif) :
    decodeRetif p get = .form (ixAt get (p.lead 0xFE)) := by
  unfold decodeRetif
  rw [h]

theorem decodeRetif_unlisted (h : p.form? 0xFE (get 1) = none) :
    decodeRetif p get = .unlisted (get 1) := by
  unfold decodeRetif
  rw [h]

theorem decodeAt_div (h : get 0 = 0x04) : decodeAt p get = .ok (.div (decodeDiv p get)) := by
  unfold decodeAt
  rw [h]
  rfl

theorem decodeAt_sdiv (h : get 0 = 0x5C) : decodeAt p get = .ok (.sdiv (decodeSdiv p get)) := by
  unfold decodeAt
  rw [h]
  rfl

theorem decodeAt_pop (h : get 0 = 0x1A) : decodeAt p get = .ok (decodePop p get) := by
  unfold decodeAt
  rw [h]
  rfl

theorem decodeAt_push (h : get 0 = 0x1C) : decodeAt p get = .ok (decodePush p get) := by
  unfold decodeAt
  rw [h]
  rfl

theorem decodeAt_setvar (h : get 0 = 0xBE) : decodeAt p get = .ok (.setvar (decodeSetvar p get)) := by
  unfold decodeAt
  rw [h]
  rfl

theorem decodeAt_getvar (h : get 0 = 0xBF) : decodeAt p get = .ok (.getvar (decodeGetvar p get)) := by
  unfold decodeAt
  rw [h]
  rfl

theorem decodeAt_retif (h : get 0 = 0xFE) : decodeAt p get = .ok (.retif (decodeRetif p get)) := by
  unfold decodeAt
  rw [h]
  rfl

end Decoders

/-- The bytes `l` are those of the listed form `f` with the operand bytes `b :: r`, and `rest`. -/
structure IsPlaced (p : Params) (f : Form) (b : Byte) (r rest l : List Byte) : Prop where
  opcode : l.getD 0 0 = f.opcode
  form : p.form? f.opcode (l.getD 1 0) = some f
  index : ixAt (fun k => l.getD k 0) (p.lead f.opcode) = b.setWidth 5
  others : l.drop (p.lead f.opcode + 1) = r ++ rest
  operands : f.leadsIndex = false → l.drop (p.lead f.opcode) = b :: r ++ rest

/-- The first operand, where it is an index. -/
theorem IsPlaced.ix {f : Form} {i : BitVec 5} {r rest l : List Byte}
    (h : IsPlaced p f (ixByte i) r rest l) : ixAt (fun k => l.getD k 0) (p.lead f.opcode) = i :=
  h.index.trans (ixByte_setWidth i)

/-- A listed form is read back if its decoder `dec` reads it from bytes that are placed as its pattern
says. -/
theorem readsBack_listed {i : Instr} {f : Form} {b : Byte} {r : List Byte} {dec : (Nat → Byte) → Instr}
    (hat : ∀ get : Nat → Byte, get 0 = f.opcode → decodeAt p get = .ok (dec get))
    (hl : p.lists f = true)
    (he : encode p i = (p.sub? f).map fun sub => p.place f.opcode sub (b :: r))
    (hd : ∀ rest l, IsPlaced p f b r rest l → dec (fun k => l.getD k 0) = i) : ReadsBack p i := by
  obtain ⟨sub, hsub, -, hform⟩ := Params.lists_iff.1 hl
  rw [hsub] at he
  refine ⟨_, he, fun rest => ?_⟩
  obtain ⟨hopcode, hform', hindex, hothers, hoperands⟩ := Params.place_spec (b := b) (r := r) hform rfl
  exact (hat _ hopcode).trans
    (congrArg Except.ok (hd rest _ ⟨hopcode, hform', hindex, hothers, hoperands⟩))

theorem readsBack_pushOf (w : Width) (i : RegIx) (h : p.lists (.push w) = true) :
    ReadsBack p (pushOf w i) :=
  readsBack_listed (b := ixByte i) (r := []) (fun _ => decodeAt_push) h (by cases w <;> rfl)
    fun _ _ hl => (decodePush_push hl.form).trans (congrArg (pushOf w) hl.ix)

theorem readsBack_push32 (x : Reg32) (h : p.lists x.pushForm = true) : ReadsBack p (.push32 (.form x)) := by
  cases x with
  | gen i => exact readsBack_pushOf .w32 i h
  | fr f =>
    exact readsBack_listed (b := ixByte f) (r := []) (fun _ => decodeAt_push) h rfl fun _ _ hl =>
      (decodePush_pushFr hl.form).trans (congrArg (fun f => Instr.push32 (.form (.fr f))) hl.ix)

theorem readsBack_popOf (w : Width) (i : RegIx) (h : p.lists (.pop w) = true) :
    ReadsBack p (popOf w i) :=
  readsBack_listed (b := ixByte i) (r := []) (fun _ => decodeAt_pop) h (by cases w <;> rfl)
    fun _ _ hl => (decodePop_pop hl.form).trans (congrArg (popOf w) hl.ix)

theorem readsBack_pop32 (x : Reg32) (h : p.lists x.popForm = true) : ReadsBack p (.pop32 (.form x)) := by
  cases x with
  | gen i => exact readsBack_popOf .w32 i h
  | fr f =>
    exact readsBack_listed (b := ixByte f) (r := []) (fun _ => decodeAt_pop) h rfl fun _ _ hl =>
      (decodePop_popFr hl.form).trans (congrArg (fun f => Instr.pop32 (.form (.fr f))) hl.ix)

theorem readsBack_div (x : DivForm) (h : p.lists (.div x.w) = true) : ReadsBack p (.div (.form x)) :=
  readsBack_listed (b := ixByte x.d) (r := [ixByte x.s]) (fun _ => decodeAt_div) h rfl
    fun _ _ hl => congrArg Instr.div ((decodeDiv_div hl.form).trans
      (congrArg Given.form (congrArg₂ (DivForm.mk x.w) hl.ix (ix_at hl.others))))

theorem readsBack_sdiv (x : DivForm) (h : p.lists (.sdiv x.w) = true) : ReadsBack p (.sdiv (.form x)) :=
  readsBack_listed (b := ixByte x.d) (r := [ixByte x.s]) (fun _ => decodeAt_sdiv) h rfl
    fun _ _ hl => congrArg Instr.sdiv ((decodeSdiv_sdiv hl.form).trans
      (congrArg Given.form (congrArg₂ (DivForm.mk x.w) hl.ix (ix_at hl.others))))

theorem readsBack_retif (k : CondIx) (h : p.lists .retif = true) : ReadsBack p (.retif (.form k)) :=
  readsBack_listed (b := ixByte k) (r := []) (fun _ => decodeAt_retif) h rfl
    fun _ _ hl => congrArg Instr.retif ((decodeRetif_retif hl.form).trans (congrArg Given.form hl.ix))

theorem readsBack_getvar (x : GetForm) (h : p.lists (.getvar x.k.kind) = true) :
    ReadsBack p (.getvar (.form x)) :=
  readsBack_listed (b := ixByte x.d) (r := x.k.encode) (fun _ => decodeAt_getvar) h rfl
    fun _ _ hl => congrArg Instr.getvar ((decodeGetvar_getvar hl.form).trans
      (congrArg Given.form (congrArg₂ GetForm.mk hl.ix (src32_at hl.others))))

/-- The operands of SETVAR, the first of them where the pattern puts it (R116). -/
theorem readsBack_setvar (x : SetForm) (h : p.lists (.setvar x.k.kind x.v.kind) = true) :
    ReadsBack p (.setvar (.form x)) := by
  have hread {b : Byte} {r : List Byte} (he : x.encode = b :: r)
      (hx : ∀ rest l, IsPlaced p (.setvar x.k.kind x.v.kind) b r rest l →
        setFormAt x.k.kind x.v.kind (fun k => l.getD k 0) (p.lead 0xBE) = x) :
      ReadsBack p (.setvar (.form x)) :=
    readsBack_listed (b := b) (r := r) (fun _ => decodeAt_setvar) h
      (congrArg (fun bs => (p.sub? (.setvar x.k.kind x.v.kind)).map fun sub => p.place 0xBE sub bs) he)
      fun rest l hl => congrArg Instr.setvar ((decodeSetvar_setvar hl.form).trans
        (congrArg Given.form (hx rest l hl)))
  match x with
  | ⟨.imm a, .imm b⟩ => exact hread rfl fun _ _ hl => setForm_at (hl.operands rfl)
  | ⟨.imm a, .reg j⟩ =>
    exact hread rfl fun _ _ hl =>
      congrArg₂ SetForm.mk (congrArg Src32.imm (be_at hl.others)) (congrArg Src32.reg hl.ix)
  | ⟨.reg i, .imm b⟩ =>
    exact hread rfl fun _ _ hl =>
      congrArg₂ SetForm.mk (congrArg Src32.reg hl.ix) (congrArg Src32.imm (be_at hl.others))
  | ⟨.reg i, .reg j⟩ =>
    exact hread rfl fun _ _ hl =>
      congrArg₂ SetForm.mk (congrArg Src32.reg hl.ix) (congrArg Src32.reg (ix_at hl.others))

/-- A row whose encodings the parameters list: its forms are listed, and a byte that is not listed is read
by the row that takes those. -/
theorem readsBack_given {α : Type} {op : Byte} {base : Bool} {ok : α → Bool} {f : α → Form}
    {row : Given α → Instr} {x : Given α} (h : x.wfOther p op base ok f = true)
    (hform : ∀ y, p.lists (f y) = true → ReadsBack p (row (.form y)))
    (hunlisted : ∀ b, base = true → p.form? op b = none → ReadsBack p (row (.unlisted b))) :
    ReadsBack p (row x) := by
  cases x with
  | form y => exact hform y (Bool.and_eq_true_iff.1 h).2
  | unlisted b =>
    obtain ⟨hbase, hnone⟩ := Bool.and_eq_true_iff.1 h
    exact hunlisted b hbase (Option.isNone_iff_eq_none.1 hnone)

/-- Every well-formed instruction is read back. -/
theorem readsBack_of_wf {i : Instr} (h : i.wf p = true) : ReadsBack p i := by
  cases i with
  | nop | ret => exact ⟨_, rfl, fun _ => rfl⟩
  -- LD
  | ldRN d n => exact ⟨_, rfl, fun _ => congrArg Except.ok (congrArg₂ Instr.ldRN (ix_at rfl) rfl)⟩
  | ldRR | ldRFr => exact ⟨_, rfl, fun _ => congrArg Except.ok (congrArg₂ _ (ix_at rfl) (ix_at rfl))⟩
  | ldRAbs d a => exact readsBack_byteLoadOf d (.abs a)
  | ldRAbsImm d a o => exact readsBack_byteLoadOf d (.absImm a o)
  | ldRAbsR8 d a q => exact readsBack_byteLoadOf d (.absR8 a q)
  | ldRAbsR16 d a q => exact readsBack_byteLoadOf d (.absR16 a q)
  | ldRAbsR24 d a q => exact readsBack_byteLoadOf d (.absR24 a q)
  | ldRInd d b => exact readsBack_byteLoadOf d (.ind b)
  | ldRIndImm d b o => exact readsBack_byteLoadOf d (.indImm b o)
  | ldRIndR8 d b q => exact readsBack_byteLoadOf d (.indR8 b q)
  | ldRIndR16 d b q => exact readsBack_byteLoadOf d (.indR16 b q)
  | ldRIndR24 d b q => exact readsBack_byteLoadOf d (.indR24 b q)
  | ldRr f => exact readsBack_ldWide isLdRow_ldRr rfl (fun _ => rfl) h
  | ldRrr f => exact readsBack_ldWide isLdRow_ldRrr rfl (fun _ => rfl) h
  | ldRrrr f => exact readsBack_ldWide isLdRow_ldRrrr rfl (fun _ => rfl) h
  | ldMem f => exact readsBack_ldMem h
  | ldFr f => exact readsBack_ldFr h
  | ldUndef b => exact readsBack_ldUndef h
  | ldRrrInd d b => exact readsBack_ldRrrInd h
  | ldAbsR s a => exact readsBack_ldAbsR h
  -- ADD and SUB
  | addRN d n => exact ⟨_, rfl, fun _ => congrArg Except.ok (congrArg₂ Instr.addRN (ix_at rfl) rfl)⟩
  | addR f => exact readsBack_addR h
  | addUndef b => exact readsBack_addUndef h
  | add16 b | add24 b | add32 b =>
    obtain ⟨hr, hw⟩ := Bool.and_eq_true_iff.1 h
    exact readsBack_addShared hr rfl (shared_suffix _ _ _ _ hw)
  | sub f => exact readsBack_sub h
  | sub16 b | sub24 b | sub32 b =>
    obtain ⟨hr, hw⟩ := Bool.and_eq_true_iff.1 h
    exact readsBack_subShared hr rfl (shared_suffix _ _ _ _ hw)
  | subUndef b => exact readsBack_subUndef h
  -- the other shared primary opcodes
  | and | or | xor | inc | dec | djnz | nand | nor | xnor =>
    exact ⟨_, rfl, fun _ => congrArg Except.ok (shared_base _ _ _ _ h)⟩
  | and16 | and24 | and32 | or16 | or24 | or32 | xor16 | xor24 | xor32 | inc16 | inc24 | inc32
  | dec16 | dec24 | dec32 | djnz16 | djnz24 | djnz32 | nand16 | nand24 | nand32 | nor16 | nor24 | nor32
  | xnor16 | xnor24 | xnor32 =>
    exact ⟨_, rfl, fun _ => congrArg Except.ok (shared_suffix _ _ _ _ h)⟩
  | imply v k =>
    exact ⟨_, rfl, fun _ => congrArg Except.ok ((shared_base _ _ _ _ h).trans
      (congrArg₂ Instr.imply (variantOf_subOf v k) (lowOf_subOf v k)))⟩
  | imply16 v k | imply24 v k | imply32 v k =>
    exact ⟨_, rfl, fun _ => congrArg Except.ok ((shared_suffix _ _ _ _ h).trans
      (congrArg₂ _ (variantOf_subOf v k) (lowOf_subOf v k)))⟩
  -- CALL, CALLR, JP, JR
  | callNnn => exact readsBack_nnn isJumpRow_call rfl h
  | callCond => exact readsBack_cond isJumpRow_call rfl h
  | callOther => exact readsBack_otherVariant isJumpRow_call rfl h
  | callrNnn => exact readsBack_nnn isJumpRow_callr rfl h
  | callrCond => exact readsBack_cond isJumpRow_callr rfl h
  | callrOther => exact readsBack_otherVariant isJumpRow_callr rfl h
  | jpNnn => exact readsBack_nnn isJumpRow_jp rfl h
  | jpCond => exact readsBack_cond isJumpRow_jp rfl h
  | jpOther => exact readsBack_otherVariant isJumpRow_jp rfl h
  | jrNnn => exact readsBack_nnn isJumpRow_jr rfl h
  | jrCond => exact readsBack_cond isJumpRow_jr rfl h
  | jrOther => exact readsBack_otherVariant isJumpRow_jr rfl h
  -- the primary opcodes whose pattern is a parameter
  | pop =>
    exact readsBack_given h (readsBack_popOf .w8) fun _ _ hb =>
      ⟨_, rfl, fun _ => congrArg Except.ok (decodePop_unlisted hb)⟩
  | pop16 => exact readsBack_given h (readsBack_popOf .w16) nofun
  | pop24 => exact readsBack_given h (readsBack_popOf .w24) nofun
  | pop32 => exact readsBack_given h readsBack_pop32 nofun
  | push =>
    exact readsBack_given h (readsBack_pushOf .w8) fun _ _ hb =>
      ⟨_, rfl, fun _ => congrArg Except.ok (decodePush_unlisted hb)⟩
  | push16 => exact readsBack_given h (readsBack_pushOf .w16) nofun
  | push24 => exact readsBack_given h (readsBack_pushOf .w24) nofun
  | push32 => exact readsBack_given h readsBack_push32 nofun
  | div =>
    exact readsBack_given h readsBack_div fun _ _ hb =>
      ⟨_, rfl, fun _ => congrArg Except.ok (congrArg Instr.div (decodeDiv_unlisted hb))⟩
  | sdiv =>
    exact readsBack_given h readsBack_sdiv fun _ _ hb =>
      ⟨_, rfl, fun _ => congrArg Except.ok (congrArg Instr.sdiv (decodeSdiv_unlisted hb))⟩
  | setvar =>
    exact readsBack_given h readsBack_setvar fun _ _ hb =>
      ⟨_, rfl, fun _ => congrArg Except.ok (congrArg Instr.setvar (decodeSetvar_unlisted hb))⟩
  | getvar =>
    exact readsBack_given h readsBack_getvar fun _ _ hb =>
      ⟨_, rfl, fun _ => congrArg Except.ok (congrArg Instr.getvar (decodeGetvar_unlisted hb))⟩
  | retif =>
    exact readsBack_given h readsBack_retif fun _ _ hb =>
      ⟨_, rfl, fun _ => congrArg Except.ok (congrArg Instr.retif (decodeRetif_unlisted hb))⟩
  | ex v k | cp v k =>
    exact ⟨_, rfl, fun _ => congrArg Except.ok (congrArg₂ _ (variantOf_subOf v k) (lowOf_subOf v k))⟩
  -- the instructions of which the decoder keeps the byte after the primary opcode
  | _ => exact ⟨_, rfl, fun _ => rfl⟩

end Rows

/-- Settles O1: every well-formed instruction is read back, from as many bytes as its length. -/
theorem decodeReadsBackEncode : Obligations.DecodeReadsBackEncode := fun _ _ h =>
  (readsBack_of_wf h).decode

end Sys2Proof

/-! # Loads without memory, and samples of the encoding (40_ld.md)

The statements about LD of a general register from an immediate, a register or a float register: each is its
index check and one write of the destination. Then the byte strings that the spec writes out, and the forms
that no parameter lists. -/

namespace Sys2Proof.Machine

/-! ## Loads from an immediate or a register -/

section Completes

variable (w : Width) {d r : RegIx} {s : State}

/-- What LD of an immediate does when its index names a register (R140, R141). -/
theorem loadImm_completes (hd : d.toNat < 26) (v : BitVec w.bits) : ∃ t,
    loadImm w d v s = .next t ∧ t.readReg w d = v ∧ s.frame t (.flags :: s.regLocs w d) :=
  ⟨_, requireRegs_pos (all_regOk (List.forall_mem_singleton.2 hd)) _, writeReg_then_drawFlags s w d v⟩

theorem loadImm_bad_index (hd : 26 ≤ d.toNat) (v : BitVec w.bits) :
    loadImm w d v s = .fault .badRegisterIndex :=
  requireRegs_neg (not_all_regOk (List.mem_singleton_self d) hd) _

/-- What LD of a register does when both its indices name registers (R140, R142). -/
theorem moveTo_completes (hd : d.toNat < 26) (hr : r.toNat < 26) : ∃ t,
    moveTo w d r s = .next t ∧ t.readReg w d = s.readReg w r ∧
      s.frame t (.flags :: s.regLocs w d) := by
  have hregs : ∀ q ∈ [d, r], q.toNat < 26 :=
    List.forall_mem_cons.2 ⟨hd, List.forall_mem_singleton.2 hr⟩
  exact ⟨_, requireRegs_pos (all_regOk hregs) _, writeReg_then_drawFlags s w d _⟩

end Completes

/-- Settles O15: the bytes by the row of sub-opcode 0; the effect and the fault are those of `loadImm`. -/
theorem loadImmediateByte : Obligations.LoadImmediateByte := by
  rintro p s dd n d rfl
  exact ⟨decode_of rfl (Nat.le_refl 4), rfl, fun hd => loadImm_completes .w8 hd n,
    fun hd => loadImm_bad_index .w8 hd n⟩

/-- Settles O16: the bytes by the row of sub-opcode 1; the effect is that of `moveTo`. -/
theorem loadRegisterByte : Obligations.LoadRegisterByte := by
  rintro p s dd ss d r rfl rfl
  exact ⟨decode_of rfl (Nat.le_refl 4), rfl, moveTo_completes .w8⟩

/-- Settles O19: the six forms are `loadImm` and `moveTo` of the three widths. -/
theorem loadWideImmediateOrRegister : Obligations.LoadWideImmediateOrRegister := by
  intro s d r v16 v24 v32 hd hr
  exact ⟨loadImm_completes .w16 hd v16, loadImm_completes .w24 hd v24, loadImm_completes .w32 hd v32,
    moveTo_completes .w16 hd hr, moveTo_completes .w24 hd hr, moveTo_completes .w32 hd hr⟩

/-! ## `LD r, fr` -/

/-- Settles O21: the form looks at `runOpen` first; past the index checks it draws its destination. -/
theorem loadByteFromFloatWritesOnlyDestination :
    Obligations.LoadByteFromFloatWritesOnlyDestination := by
  refine fun s d f => ⟨fun hd hf hopen => ?_, fun hclosed => if_neg (Bool.eq_false_iff.1 hclosed)⟩
  have he : exec (.ldRFr d f) s = .next (s.drawReg .w8 d).drawFlags :=
    calc exec (.ldRFr d f) s
      _ = requireRegs [d] (requireFregs [f] (.next (s.drawReg .w8 d).drawFlags)) := if_pos hopen
      _ = requireFregs [f] (.next (s.drawReg .w8 d).drawFlags) :=
        requireRegs_pos (all_regOk (List.forall_mem_singleton.2 hd)) _
      _ = .next (s.drawReg .w8 d).drawFlags := requireFregs_pos (all_fregOk_singleton hf) _
  exact ⟨_, he, State.frame_then_drawFlags (s.frame_drawReg .w8 d)⟩

/-! ## Bytes written out, and forms not listed -/

/-- Settles O2: the first three rows of the decoder look at no parameter; JR is the row that its variant
picks, which sub-opcode 0 has when the parameter is 0. -/
theorem sampleWordsDecode : Obligations.SampleWordsDecode := by
  refine fun p => ⟨?_, ?_, ?_, fun hjr => ?_⟩
  · exact decode_of rfl (Nat.le_refl 4)
  · exact decode_of rfl (Nat.le_refl 6)
  · exact decode_of rfl (Nat.le_refl 4)
  · exact decode_of (congrArg Except.ok (decodeJump_nnn hjr)) (Nat.le_refl 5)

/-- Settles O53: the meaning of a form with an unlisted sub-opcode byte is the refusal of its row. -/
theorem unlistedFormsRefused : Obligations.UnlistedFormsRefused := by
  intro s b
  and_intros <;> rfl

end Sys2Proof.Machine

/-! # Division (41_arithmetic.md)

The statements about DIV and SDIV: both are `divide`, which past its index check looks at the divisor and,
when that is not zero, at whether the model runs open forms. -/

namespace Sys2Proof.Machine

/-! ## Error entry -/

/-- The handler's address of an error that is taken fits IPO (R404, D15). -/
theorem State.raiseError_ipo_toNat {s t : State} {kind : ErrorKind} (h : s.raiseError kind = .ok t) :
    t.ipo.toNat = (s.hmemRead Config.errorHandlerAddress).toNat := by
  obtain ⟨haddr, -⟩ := State.raiseError_eq_ok.1 h
  rw [State.raiseError_ipo h, BitVec.toNat_setWidth]
  exact Nat.mod_eq_of_lt (Nat.lt_succ_of_le haddr)

/-- Error entry keeps RBANK, so an operand names the same registers after it (R22, R404). -/
theorem State.raiseError_regLocs {s t : State} {kind : ErrorKind} (h : s.raiseError kind = .ok t)
    (w : Width) (i : RegIx) : t.regLocs w i = s.regLocs w i := by
  obtain ⟨-, rfl⟩ := State.raiseError_eq_ok.1 h
  cases kind <;> rfl

/-- Error entry that leaves a general register free (R404, D16). -/
theorem State.frame_raiseError_drawReg {s t : State} {kind : ErrorKind} (h : s.raiseError kind = .ok t)
    (w : Width) (i : RegIx) :
    s.frame (t.drawReg w i) (.flags :: .ipo :: .hmem Config.errorId :: s.regLocs w i) := by
  have hreg : t.frame (t.drawReg w i) (s.regLocs w i) :=
    State.raiseError_regLocs h w i ▸ t.frame_drawReg w i
  refine State.frame_mono (State.frame_trans (State.frame_raiseError h) hreg) fun l hl => ?_
  simp only [List.mem_append, List.mem_cons, List.not_mem_nil, or_false] at hl ⊢
  tauto

/-! ## The branches of `divide` -/

theorem all_regOk_pair {d r : RegIx} (hd : d.toNat < 26) (hr : r.toNat < 26) :
    [d, r].all regOk = true :=
  all_regOk (List.forall_mem_cons.2 ⟨hd, List.forall_mem_singleton.2 hr⟩)

section Divide

variable {s : State} {w : Width} {d r : RegIx} (mnemonic : String)

/-- A zero divisor (R405): no parameter is looked at. -/
theorem divide_by_zero (hd : d.toNat < 26) (hr : r.toNat < 26) (hz : s.readReg w r = 0) :
    divide mnemonic (.form ⟨w, d, r⟩) s =
      withOk (s.raiseError .divZero) fun t => .next (t.drawReg w d) :=
  (requireRegs_pos (all_regOk_pair hd hr) _).trans (if_pos hz)

/-- A divisor that is not zero (R178, R191; log entry 6). -/
theorem divide_by_nonzero (hd : d.toNat < 26) (hr : r.toNat < 26) (hz : s.readReg w r ≠ 0) :
    divide mnemonic (.form ⟨w, d, r⟩) s =
      if s.params.runOpen then .next (s.drawReg w d).drawFlags else unspecified mnemonic :=
  (requireRegs_pos (all_regOk_pair hd hr) _).trans (if_neg hz)

/-- A zero divisor under a handler whose address fits IPO (R404, R405). -/
theorem divide_by_zero_enters_handler (hd : d.toNat < 26) (hr : r.toNat < 26)
    (hz : s.readReg w r = 0) (haddr : (s.hmemRead 65535).toNat ≤ 0xFFFFFF) :
    ∃ t, divide mnemonic (.form ⟨w, d, r⟩) s = .next t ∧ t.ipo.toNat = (s.hmemRead 65535).toNat ∧
      t.hmemRead 65534 = s.params.errIdDiv0 ∧
      s.frame t (.flags :: .ipo :: .hmem 65534 :: s.regLocs w d) := by
  obtain ⟨u, hu⟩ := State.raiseError_isOk .divZero haddr
  refine ⟨u.drawReg w d, ?_, ?_, ?_, State.frame_raiseError_drawReg hu w d⟩
  · rw [divide_by_zero mnemonic hd hr hz, hu, withOk_ok]
  · rw [State.drawReg_ipo]
    exact State.raiseError_ipo_toNat hu
  · rw [State.hmemRead, State.drawReg_hmem]
    exact State.raiseError_id hu

/-- A divisor that is not zero, with open forms and without (R178, R191, D5; log entry 6). -/
theorem divide_by_nonzero_writes_only_destination (hd : d.toNat < 26) (hr : r.toNat < 26)
    (hz : s.readReg w r ≠ 0) :
    (s.params.runOpen = true → ∃ t, divide mnemonic (.form ⟨w, d, r⟩) s = .next t ∧
      s.frame t (.flags :: s.regLocs w d)) ∧
    (s.params.runOpen = false →
      divide mnemonic (.form ⟨w, d, r⟩) s = .refused (.unspecifiedInstruction mnemonic)) := by
  rw [divide_by_nonzero mnemonic hd hr hz]
  refine ⟨fun hopen => ⟨_, if_pos hopen, ?_⟩, fun hclosed => if_neg (Bool.eq_false_iff.1 hclosed)⟩
  exact State.frame_then_drawFlags (s.frame_drawReg w d)

end Divide

/-! ## DIV and SDIV -/

/-- Settles O26: DIV and SDIV are `divide`; its error entry is followed by a draw of the destination. -/
theorem divideByZeroEntersHandler : Obligations.DivideByZeroEntersHandler := by
  rintro s w d r _ (rfl | rfl) hd hr hz haddr
  · exact divide_by_zero_enters_handler "DIV" hd hr hz haddr
  · exact divide_by_zero_enters_handler "SDIV" hd hr hz haddr

/-- Settles O27: DIV and SDIV are `divide` under their own names. -/
theorem divideWritesOnlyDestination : Obligations.DivideWritesOnlyDestination := by
  rintro s w d r _ _ (⟨rfl, rfl⟩ | ⟨rfl, rfl⟩) hd hr hz
  · exact divide_by_nonzero_writes_only_destination "DIV" hd hr hz
  · exact divide_by_nonzero_writes_only_destination "SDIV" hd hr hz

end Sys2Proof.Machine

/-! # Calls and returns (44_control.md)

The statements about NOP, CALL, CALLR, RET and RETIF: a call that is taken is `callTo` a target, a return
that is taken is `State.retPop`. -/

namespace Sys2Proof.Machine

/-! ## Frames -/

/-- A listed location that holds what it held before may be left out of the list. -/
theorem State.frame_of_frame_cons {s t : State} {l : Loc} {c : List Loc} (h : s.frame t (l :: c))
    (hl : t.look l = s.look l) : s.frame t c := by
  refine ⟨fun m hm => ?_, h.2⟩
  by_cases e : m = l
  · rw [e, hl]
  · exact h.1 m fun hmem => (List.mem_cons.1 hmem).elim e hm

/-! ## NOP (R260) -/

theorem exec_nop_present {s : State} (h : s.params.subopPresent? 0x00 ≠ none) : exec .nop s = .next s :=
  if_pos (Option.isSome_iff_ne_none.2 h)

theorem exec_nop_absent {s : State} (h : s.params.subopPresent? 0x00 = none) :
    exec .nop s = .refused (.unspecifiedInstruction "NOP") :=
  if_neg (Option.not_isSome_iff_eq_none.2 h)

/-- Settles O28: NOP leaves the very state it finds. -/
theorem nopChangesNothing : Obligations.NopChangesNothing := fun s =>
  ⟨fun h => ⟨s, exec_nop_present h, s.frame_refl []⟩, exec_nop_absent⟩

/-! ## RetPop (R271) -/

/-- SPC = 0, as a value and as a number. -/
theorem State.spc_eq_zero_iff {s : State} : s.spc = 0 ↔ s.spc.toNat = 0 := BitVec.toNat_inj.symm

/-- A step down of SPC does not wrap. -/
theorem State.spc_sub_one_toNat {s : State} (h : s.spc.toNat ≠ 0) :
    (s.spc - 1).toNat = s.spc.toNat - 1 := by
  have h1 : (1 : BitVec 24).toNat = 1 := rfl
  have hlt := s.spc.isLt
  rw [BitVec.toNat_sub, h1]
  omega

/-- A pop of a call stack that is not empty. -/
theorem State.retPop_pops {s : State} (h : s.spc.toNat ≠ 0) :
    s.retPop.spc.toNat = s.spc.toNat - 1 ∧ s.retPop.ipo = s.csRead (s.spc.toNat - 1) ∧
      s.frame s.retPop [.spc, .ipo, .flags] := by
  have hspc : s.spc ≠ 0 := mt State.spc_eq_zero_iff.1 h
  refine ⟨?_, ?_, State.frame_retPop hspc⟩
  · rw [State.retPop_pos hspc]
    exact State.spc_sub_one_toNat h
  · rw [State.retPop_pos hspc, ← State.spc_sub_one_toNat h]
    rfl

/-- A pop of an empty call stack is the stop. -/
theorem State.retPop_empty {s : State} (h : s.spc.toNat = 0) : s.retPop = s.stop :=
  State.retPop_zero (State.spc_eq_zero_iff.2 h)

/-- Settles O33: the two branches of `State.retPop`. -/
theorem retPopTakesTopEntry : Obligations.RetPopTakesTopEntry := fun s =>
  ⟨fun h => State.retPop_empty h ▸ ⟨rfl, s.frame_stop⟩, State.retPop_pops⟩

/-! ## RET and RETIF (R272, R273) -/

theorem exec_ret_present {s : State} (h : s.params.subopPresent? 0xFF ≠ none) :
    exec .ret s = .next s.retPop :=
  if_pos (Option.isSome_iff_ne_none.2 h)

/-- RET of unknown length (R273, D26). -/
theorem exec_ret_absent {s : State} (h : s.params.subopPresent? 0xFF = none) :
    exec .ret s =
      if s.spc = 0 then .next (s.stop.jump (s.drawn.setWidth 24)).drawNext else unspecified "RET" :=
  if_neg (Option.not_isSome_iff_eq_none.2 h)

/-- A return that is taken pops the call stack and does nothing else. -/
theorem exec_return_taken {s : State} {i : Instr} {k : CondIx}
    (h : i = .ret ∧ s.params.subopPresent? 0xFF ≠ none ∨ i = .retif (.form k) ∧ s.cond k = .ok true) :
    exec i s = .next s.retPop := by
  obtain ⟨rfl, hp⟩ | ⟨rfl, hk⟩ := h
  · exact exec_ret_present hp
  · exact onCond_ok (fun t => .next t.retPop) hk

/-- A stopped machine takes no further step (R37, R408). -/
theorem step_of_stopped {s : State} (h : s.running = false) : step s = .fault .stopped :=
  if_neg (Bool.eq_false_iff.1 h)

/-- Settles O34: a return that is taken is `State.retPop`, which pops. -/
theorem returnsPopCallStack : Obligations.ReturnsPopCallStack := by
  intro s i k hspc hi
  obtain ⟨hspc', hipo, hframe⟩ := State.retPop_pops hspc
  exact ⟨s.retPop, exec_return_taken hi, hipo, hspc', State.frame_mono hframe (by simp)⟩

/-- Settles O35: a return that is taken is `State.retPop`, which stops; `step` looks at RUN first. -/
theorem returnWithEmptyStackStops : Obligations.ReturnWithEmptyStackStops := by
  intro s i k hspc hi
  have he : exec i s = .next s.stop := State.retPop_empty hspc ▸ exec_return_taken hi
  exact ⟨s.stop, he, rfl, s.frame_stop, step_of_stopped rfl⟩

/-- Settles O36: the two branches of a RET of unknown length. -/
theorem returnOfUnknownLength : Obligations.ReturnOfUnknownLength := by
  intro s hp
  rw [exec_ret_absent hp]
  refine ⟨fun h => ?_, fun h => if_neg (mt State.spc_eq_zero_iff.1 h)⟩
  refine ⟨_, if_pos (State.spc_eq_zero_iff.2 h), rfl, ?_⟩
  exact State.frame_trans (State.frame_trans s.frame_stop (State.frame_jump _ _)) (State.frame_drawNext _)

/-! ## CALL and CALLR (R262, R263) -/

/-- The unconditional calls. -/
theorem exec_call {i : Instr} {a : Addr} (h : i = .callNnn a ∨ i = .callrNnn a) (s : State) :
    ∃ target, exec i s = callTo target s := by
  obtain rfl | rfl := h
  · exact ⟨a, rfl⟩
  · exact ⟨s.relTarget a, rfl⟩

/-- The conditional calls. -/
theorem exec_callCond {i : Instr} {k : CondIx} {a : Addr} (h : i = .callCond k a ∨ i = .callrCond k a)
    (s : State) : ∃ target, exec i s = onCond k (callTo target) s := by
  obtain rfl | rfl := h
  · exact ⟨a, rfl⟩
  · exact ⟨s.relTarget a, rfl⟩

/-- A conditional instruction that is not taken (R261, D6). -/
theorem exec_untaken {s : State} {i : Instr} {k : CondIx} (hi : condIx? i = some k)
    (hk : s.cond k = .ok false) : exec i s = .next s.drawFlags := by
  obtain ⟨taken, he⟩ := exec_of_condIx hi
  exact (he s).trans (onCond_ok taken hk)

/-- Settles O31: each of the three is a conditional instruction that is not taken. -/
theorem untakenCallsAndReturnsFallThrough : Obligations.UntakenCallsAndReturnsFallThrough := by
  intro s i a k hk hi
  have hcond : condIx? i = some k := by obtain rfl | rfl | rfl := hi <;> rfl
  exact ⟨s.drawFlags, exec_untaken hcond hk, s.frame_drawFlags⟩

/-- A call that is taken with no entry free (R270, R409, D13). -/
theorem callTo_full {s : State} (h : 1048576 ≤ s.spc.toNat) (a : Addr) :
    callTo a s = .fault .callStackOverflow := by
  have hpush : s.callPush s.ipo = .error .callStackOverflow := if_neg (Nat.not_lt.2 h)
  rw [callTo, hpush, withOk_error]

/-- Settles O32: a call that is taken is `callTo`, which faults. -/
theorem callWithFullStackFaults : Obligations.CallWithFullStackFaults := by
  intro s i a k hspc hi
  obtain ⟨target, he⟩ : ∃ target, exec i s = callTo target s := by
    obtain hi | hi | ⟨hk, hi⟩ := hi
    · exact exec_call (.inl hi) s
    · exact exec_call (.inr hi) s
    · obtain ⟨target, he⟩ := exec_callCond hi s
      exact ⟨target, he.trans (onCond_ok _ hk)⟩
  rw [he, callTo_full hspc]

/-! ## A return after a call -/

/-- What a call that completes has done: an entry was free, and it holds the return address (R270, D31). -/
theorem callTo_eq_next {s t : State} {a : Addr} (h : callTo a s = .next t) :
    t.spc.toNat = s.spc.toNat + 1 ∧ t.csRead s.spc.toNat = s.ipo ∧
      s.frame t [.flags, .ipo, .spc, .csram s.spc.toNat] := by
  obtain ⟨u, hu, -⟩ := withOk_eq_next.1 h
  obtain ⟨hfree, -⟩ := State.callPush_eq_ok.1 hu
  obtain ⟨t', ht', -, hpushed⟩ := callTo_pushes hfree a
  obtain rfl : t' = t := Host.Outcome.next.inj (ht'.symm.trans h)
  exact hpushed

/-- The pop after a call: IPO and SPC are back, and only the flags and the entry that the call wrote may
differ. -/
theorem retPop_callTo {s t : State} {a : Addr} (h : callTo a s = .next t) :
    t.retPop.ipo = s.ipo ∧ s.frame t.retPop [.flags, .csram s.spc.toNat] := by
  obtain ⟨hpushed, hentry, hcall⟩ := callTo_eq_next h
  obtain ⟨hspc, hipo, hret⟩ := State.retPop_pops (hpushed ▸ Nat.succ_ne_zero _ : t.spc.toNat ≠ 0)
  rw [hpushed, Nat.add_sub_cancel] at hspc hipo
  rw [hentry] at hipo
  have hboth : s.frame t.retPop [.ipo, .spc, .flags, .csram s.spc.toNat] :=
    State.frame_mono (State.frame_trans hcall hret) (by simp)
  have hback := State.frame_of_frame_cons hboth (congrArg BitVec.toNat hipo)
  exact ⟨hipo, State.frame_of_frame_cons hback hspc⟩

/-- Settles O37: RET is `State.retPop`; it runs after the call, which keeps the parameters. -/
theorem returnUndoesCall : Obligations.ReturnUndoesCall := by
  intro s t a i hi hp h
  obtain ⟨target, he⟩ := exec_call hi s
  rw [he] at h
  obtain ⟨-, -, -, hparams⟩ := callTo_eq_next h
  exact ⟨t.retPop, exec_ret_present (hparams ▸ hp), retPop_callTo h⟩

end Sys2Proof.Machine

/-! # The register stack (45_stack_regs.md)

The statements about PUSH and POP: past its index check each is `State.rsPush` or `State.rsPop`, whose one
test decides between the move of the operand and the entry into the error handler. -/

namespace Sys2Proof.Machine

/-! ## The operation behind each instruction -/

section Instructions

variable {s : State} {w : Width} {i : RegIx} {f : FRegIx}

/-- PUSH of a general register (R287 to R290). -/
theorem exec_pushOf (hi : i.toNat < 26) : exec (pushOf w i) s = s.rsPush w (s.readReg w i) := by
  have he : exec (pushOf w i) s = pushReg w i s := by cases w <;> rfl
  exact he.trans (requireRegs_pos (all_regOk (List.forall_mem_singleton.2 hi)) _)

/-- POP of a general register (R283 to R286). -/
theorem exec_popOf (hi : i.toNat < 26) : exec (popOf w i) s =
    s.rsPop w (fun v t => t.writeReg w i v) fun t => t.drawReg w i := by
  have he : exec (popOf w i) s = popReg w i s := by cases w <;> rfl
  exact he.trans (requireRegs_pos (all_regOk (List.forall_mem_singleton.2 hi)) _)

/-- PUSH32 of a float register (R281, R290). -/
theorem exec_push32_fr (hf : f.toNat < 16) :
    exec (.push32 (.form (.fr f))) s = s.rsPush .w32 (s.readF f) :=
  requireFregs_pos (all_fregOk_singleton hf) _

/-- POP32 of a float register (R282, R286). -/
theorem exec_pop32_fr (hf : f.toNat < 16) : exec (.pop32 (.form (.fr f))) s =
    s.rsPop .w32 (fun v t => t.writeF f v) fun t => t.drawF f :=
  requireFregs_pos (all_fregOk_singleton hf) _

end Instructions

/-! ## A push that fits, a pop that finds its item -/

section Moves

variable {s : State} {w : Width} {i : RegIx}

/-- Each byte of a pushed operand (R76, R281). -/
theorem State.rsPushed_byte (v : BitVec w.bits) {j : Nat} (hj : j < w.bytes) :
    Memory.read (s.rsPushed w v).rsram (s.spr.toNat + j) = byteOf w v j :=
  Memory.read_writeSeq_on _ (s.spr.toNat + ·) _ _ j hj fun _ _ _ _ e => Nat.add_left_cancel e

/-- A pop to a general register changes SPR and the register (R282). -/
theorem frame_rsDropped_writeReg (i : RegIx) (v : BitVec w.bits) :
    s.frame ((s.rsDropped w).writeReg w i v) (.spr :: s.regLocs w i) :=
  State.frame_trans (s.frame_rsDropped w) ((s.rsDropped w).frame_writeReg w i v)

theorem exec_pushOf_fits (hi : i.toNat < 26) (h : s.spr.toNat + w.bytes < 4194304) :
    exec (pushOf w i) s = .next (s.rsPushed w (s.readReg w i)).drawFlags :=
  (exec_pushOf hi).trans (State.rsPush_fits _ (State.rsOverflows_eq_false h))

theorem exec_popOf_fits (hi : i.toNat < 26) (h : w.bytes ≤ s.spr.toNat) :
    exec (popOf w i) s = .next ((s.rsDropped w).writeReg w i (s.rsTop w)).drawFlags :=
  (exec_popOf hi).trans (State.rsPop_fits (State.rsUnderflows_eq_false h))

/-- A pop that finds its item, from the item to the register (R282). -/
theorem popOf_completes (hi : i.toNat < 26) (h : w.bytes ≤ s.spr.toNat) : ∃ t,
    exec (popOf w i) s = .next t ∧ t.spr.toNat = s.spr.toNat - w.bytes ∧
      t.readReg w i = s.rsRead w (s.spr.toNat - w.bytes) ∧
      s.frame t (.flags :: .spr :: s.regLocs w i) := by
  refine ⟨_, exec_popOf_fits hi h, State.rsDropped_spr_toNat h, ?_, ?_⟩
  · rw [State.readReg_drawFlags, State.readReg_writeReg, State.rsTop_eq h]
  · exact State.frame_then_drawFlags (frame_rsDropped_writeReg i _)

end Moves

/-- Settles O38: past the index check the push fits, and the laws of `State.rsPushed` say what it leaves. -/
theorem pushStoresOperand : Obligations.PushStoresOperand := by
  intro s w i hi hfits
  refine ⟨_, exec_pushOf_fits hi hfits, State.rsPushed_spr_toNat (s.readReg w i) hfits,
    fun j hj => ?_, ?_⟩
  · rw [State.drawFlags_rsram, State.rsPushed_byte _ hj, byteOf_eq_shift]
  · exact State.frame_then_drawFlags (s.frame_rsPushed w _)

/-- Settles O40, by `popOf_completes`. -/
theorem popLoadsOperand : Obligations.PopLoadsOperand := fun _ _ _ hi h => popOf_completes hi h

/-- Settles O43: the pop finds the item of the push at the SPR that the push began with. -/
theorem popUndoesPush : Obligations.PopUndoesPush := by
  intro s t w i d hi hd hfits hpush
  obtain rfl : (s.rsPushed w (s.readReg w i)).drawFlags = t :=
    Host.Outcome.next.inj ((exec_pushOf_fits hi hfits).symm.trans hpush)
  have hspr : (s.rsPushed w (s.readReg w i)).drawFlags.spr.toNat = s.spr.toNat + w.bytes :=
    State.rsPushed_spr_toNat (s.readReg w i) hfits
  obtain ⟨u, hpop, hback, hread, -⟩ := popOf_completes (w := w) hd (hspr ▸ Nat.le_add_left _ _)
  rw [hspr, Nat.add_sub_cancel] at hback hread
  exact ⟨u, hpop, hread.trans (State.rsRead_rsPushed _), BitVec.eq_of_toNat_eq hback⟩

/-! ## Overflow and underflow -/

section Errors

variable {s : State} {w : Width}

theorem State.rsOverflows_eq_true (h : 4194304 ≤ s.spr.toNat + w.bytes) : s.rsOverflows w = true :=
  decide_eq_true h

theorem State.rsUnderflows_eq_true (h : s.spr.toNat < w.bytes) : s.rsUnderflows w = true :=
  decide_eq_true h

/-- A push that overflows, whatever its operand (R281, R402, R404). -/
theorem State.rsPush_enters_handler (v : BitVec w.bits) (h : 4194304 ≤ s.spr.toNat + w.bytes)
    (haddr : (s.hmemRead 65535).toNat ≤ 0xFFFFFF) : ∃ t, s.rsPush w v = .next t ∧
      t.ipo.toNat = (s.hmemRead 65535).toNat ∧ s.frame t [.flags, .ipo, .hmem 65534] := by
  obtain ⟨t, ht⟩ := State.raiseError_isOk .rsOverflow haddr
  refine ⟨t, ?_, State.raiseError_ipo_toNat ht, ?_⟩
  · rw [State.rsPush_overflow v (State.rsOverflows_eq_true h), ht, withOk_ok]
  · exact State.frame_mono (State.frame_raiseError ht) (by simp; tauto)

/-- A pop that underflows, for a destination whose draw keeps IPO and the rest (R282, R403, R404, D16). -/
theorem State.rsPop_enters_handler {put : BitVec w.bits → State → State} {any : State → State}
    {c : List Loc} (h : s.spr.toNat < w.bytes) (haddr : (s.hmemRead 65535).toNat ≤ 0xFFFFFF)
    (hipo : ∀ t : State, (any t).ipo = t.ipo)
    (hframe : ∀ t, s.raiseError .rsUnderflow = .ok t → s.frame (any t) c) :
    ∃ t, s.rsPop w put any = .next t ∧ t.ipo.toNat = (s.hmemRead 65535).toNat ∧ s.frame t c := by
  obtain ⟨u, hu⟩ := State.raiseError_isOk .rsUnderflow haddr
  refine ⟨any u, ?_, ?_, hframe u hu⟩
  · rw [State.rsPop_underflow (State.rsUnderflows_eq_true h), hu, withOk_ok]
  · rw [hipo]
    exact State.raiseError_ipo_toNat hu

/-- Error entry keeps FBANK, so an operand names the same float register after it (R25, R404). -/
theorem State.raiseError_fregLoc {t : State} {kind : ErrorKind} (h : s.raiseError kind = .ok t)
    (f : FRegIx) : t.fregLoc f = s.fregLoc f := by
  obtain ⟨-, rfl⟩ := State.raiseError_eq_ok.1 h
  cases kind <;> rfl

/-- Error entry that leaves a float register free (R404, D16). -/
theorem State.frame_raiseError_drawF {t : State} {kind : ErrorKind} (h : s.raiseError kind = .ok t)
    (f : FRegIx) : s.frame (t.drawF f) [.flags, .ipo, .hmem Config.errorId, s.fregLoc f] := by
  have hreg : t.frame (t.drawF f) [s.fregLoc f] := State.raiseError_fregLoc h f ▸ t.frame_drawF f
  exact State.frame_mono (State.frame_trans (State.frame_raiseError h) hreg) (by simp)

end Errors

/-- Settles O39: in both forms the instruction is one push. -/
theorem pushOverflowEntersHandler : Obligations.PushOverflowEntersHandler := by
  rintro s w i f _ (⟨hi, rfl⟩ | ⟨hf, rfl, rfl⟩) hover haddr
  · rw [exec_pushOf hi]
    exact State.rsPush_enters_handler _ hover haddr
  · rw [exec_push32_fr hf]
    exact State.rsPush_enters_handler (w := .w32) _ hover haddr

/-- Settles O41: in both forms the instruction is one pop, and the entry is followed by a draw of its
destination. -/
theorem popUnderflowEntersHandler : Obligations.PopUnderflowEntersHandler := by
  rintro s w i f _ _ (⟨hi, rfl, rfl⟩ | ⟨hf, rfl, rfl, rfl⟩) hunder haddr
  · rw [exec_popOf hi]
    exact State.rsPop_enters_handler hunder haddr (fun t => t.drawReg_ipo w i)
      fun _ ht => State.frame_raiseError_drawReg ht w i
  · rw [exec_pop32_fr hf]
    exact State.rsPop_enters_handler (w := .w32) hunder haddr (fun t => t.drawF_ipo f)
      fun _ ht => State.frame_raiseError_drawF ht f

end Sys2Proof.Machine

/-! # Exceptions (60_exceptions.md)

The statements about error entry itself: its one test is the handler's address, and where that does not fit
IPO, an instruction that raises an error has the fault of the entry. -/

namespace Sys2Proof.Machine

/-! ## Error entry -/

/-- A handler's address that does not fit IPO (R404, D15). -/
theorem State.raiseError_error {s : State} (kind : ErrorKind) (h : 0xFFFFFF < (s.hmemRead 65535).toNat) :
    s.raiseError kind = .error .badHandlerAddress :=
  if_neg (Nat.not_le.2 h)

/-- RUN is a location like the others, so a frame that does not list it keeps it. -/
theorem State.frame_running {s t : State} {c : List Loc} (h : s.frame t c) (hc : .running ∉ c) :
    t.running = s.running :=
  Function.LeftInverse.injective Bool.ofNat_toNat (h.1 .running hc)

/-- Settles O47: the address test decides, and the laws of `State.raiseError` say what an entry leaves. -/
theorem errorEntry : Obligations.ErrorEntry := by
  intro s kind
  refine ⟨fun haddr => ?_, State.raiseError_error kind⟩
  obtain ⟨t, ht⟩ := State.raiseError_isOk kind haddr
  have hframe : s.frame t [.flags, .ipo, .hmem 65534] :=
    State.frame_mono (State.frame_raiseError ht) (by decide)
  refine ⟨t, ht, State.raiseError_ipo_toNat ht, ?_, State.frame_running hframe (by simp), hframe⟩
  rintro rfl
  exact State.raiseError_id ht

/-! ## The instructions that raise an error -/

section BadHandler

variable {s : State} {w : Width} (haddr : 0xFFFFFF < (s.hmemRead 65535).toNat)
include haddr

/-- What an instruction does after error entry is never reached (R404, D15). -/
theorem withOk_raiseError_faults (kind : ErrorKind) (k : State → Result) :
    withOk (s.raiseError kind) k = .fault .badHandlerAddress := by
  rw [State.raiseError_error kind haddr, withOk_error]

/-- A push that overflows, whatever its operand (R281, R402). -/
theorem State.rsPush_faults (v : BitVec w.bits) (h : 4194304 ≤ s.spr.toNat + w.bytes) :
    s.rsPush w v = .fault .badHandlerAddress :=
  (State.rsPush_overflow v (State.rsOverflows_eq_true h)).trans (withOk_raiseError_faults haddr _ _)

/-- A pop that underflows, whatever its destination (R282, R403). -/
theorem State.rsPop_faults {put : BitVec w.bits → State → State} {any : State → State}
    (h : s.spr.toNat < w.bytes) : s.rsPop w put any = .fault .badHandlerAddress :=
  (State.rsPop_underflow (State.rsUnderflows_eq_true h)).trans (withOk_raiseError_faults haddr _ _)

/-- A division by zero, under either name (R178, R191, R405). -/
theorem divide_by_zero_faults (mnemonic : String) {d r : RegIx} (hd : d.toNat < 26) (hr : r.toNat < 26)
    (hz : s.readReg w r = 0) : divide mnemonic (.form ⟨w, d, r⟩) s = .fault .badHandlerAddress :=
  (divide_by_zero mnemonic hd hr hz).trans (withOk_raiseError_faults haddr _ _)

end BadHandler

/-- Settles O48: each instruction is a push, a pop or a division, and the address test stops its error entry. -/
theorem badHandlerAddressFaults : Obligations.BadHandlerAddressFaults := by
  intro s w i r f hi hr hf haddr
  refine ⟨fun hover => ?_, fun hunder => ?_, fun hover => ?_, fun hunder => ?_, fun hz => ⟨?_, ?_⟩⟩
  · exact (exec_pushOf hi).trans (State.rsPush_faults haddr _ hover)
  · exact (exec_popOf hi).trans (State.rsPop_faults haddr hunder)
  · exact (exec_push32_fr hf).trans (State.rsPush_faults (w := .w32) haddr _ hover)
  · exact (exec_pop32_fr hf).trans (State.rsPop_faults (w := .w32) haddr hunder)
  · exact divide_by_zero_faults haddr "DIV" hi hr hz
  · exact divide_by_zero_faults haddr "SDIV" hi hr hz

end Sys2Proof.Machine
